-- ==== Sys2Proof/Word.lean ====
section
/-!
DEFINITION. Bytes, audio samples, show clock values and fixed-size tables.
Everything the 2416 treats as bits on a wire is a `BitVec`; counts and levels are `Nat`; the
mix computes in `Int` (00_scope 2.2). A fixed number of like things is a `Vector`.
-/

namespace Sys2Proof

/-- One byte of a frame, message or cell (chapter 12). -/
abbrev Byte := BitVec 8

/-- One audio sample, 16-bit two's complement (R191). -/
abbrev Sample := BitVec 16

/-- A value of the 32-bit show clock (R148). -/
abbrev Stamp := BitVec 32

/-- Replace one entry of a table, every other entry being kept. -/
def put {α : Type} {n : Nat} (v : Vector α n) (i : Fin n) (x : α) : Vector α n :=
  v.set i.val x i.isLt

/-- Change one entry of a table by a function, every other entry being kept. -/
def adjust {α : Type} {n : Nat} (v : Vector α n) (i : Fin n) (f : α → α) : Vector α n :=
  put v i (f v[i])

/-- Change every entry of a table by a function of its index and its value. -/
def each {α β : Type} {n : Nat} (v : Vector α n) (f : Fin n → α → β) : Vector β n :=
  Vector.ofFn fun i => f i v[i]

end Sys2Proof
end

