-- ==== Sys2Proof/Config.lean ====
section
/-!
DEFINITION. The constants of the 2416: its identification (00_scope 1.6), the capacities of 00_scope
2.5 and the times of 00_scope 2.1. The spec leaves no value to an implementation, so no constant here
is free.
-/

namespace Sys2Proof.Config

/-- Part code, returned by IDENTIFY (R172). -/
@[simp] def partCode : Nat := 0x2416

/-- Revision, returned by IDENTIFY (R172). -/
@[simp] def revision : Nat := 1

/-- The key event queue holds at most 32 events (R58). -/
@[simp] def keyQueueCapacity : Nat := 32

/-- A PRESS or RELEASE is admitted below 28 queued events (R59). -/
@[simp] def keyOfferLimit : Nat := 28

/-- A STATE is posted below 16 queued events (R60). -/
@[simp] def statePostLimit : Nat := 16

/-- A walk visits at most 16 places (R69, R70). -/
@[simp] def visitLimit : Nat := 16

/-- A walk installs at most four hits (R69, R72). -/
@[simp] def hitLimit : Nat := 4

/-- A slot lists at most four owners (R4). -/
@[simp] def ownerLimit : Nat := 4

/-- A circuit keeps at most eight outcome records (R104). -/
@[simp] def historyCapacity : Nat := 8

/-- The cue list holds at most 128 entries (R109). -/
@[simp] def cueListCapacity : Nat := 128

/-- The uplink FIFO holds at most 8 samples (R133). -/
@[simp] def fifoCapacity : Nat := 8

/-- Slip and clip counters stop at 65535 (R36, R133). -/
@[simp] def counterTop : Nat := 65535

/-- The command queue holds at most 4 commands (R159). -/
@[simp] def commandCapacity : Nat := 4

/-- The reply queue holds at most 8 replies, the reserved entry included (R160, R163). -/
@[simp] def replyCapacity : Nat := 8

/-- The notice queue holds at most 16 notices (R164). -/
@[simp] def noticeCapacity : Nat := 16

/-- The fault log holds at most 8 records (R181). -/
@[simp] def faultCapacity : Nat := 8

/-- A fault record's repeat count stops at 255 (R180). -/
@[simp] def repeatTop : Nat := 255

/-- The reply buffer of a station port holds at most two desk replies (R126, R137). -/
@[simp] def deskReplyCapacity : Nat := 2

/-- A port comes UP on its 16th consecutive good frame (R128). -/
@[simp] def goodRunUp : Nat := 16

/-- A port leaves UP, or its training, on its 8th consecutive bad or missing frame (R128). -/
@[simp] def badRunDown : Nat := 8

/-- The AUTO key threshold, 6,400 frames (R65). -/
@[simp] def autoThreshold : Nat := 6400

/-- One second of standby timeout, 16,000 frames (R87). -/
@[simp] def framesPerSecond : Nat := 16000

/-- One tenth of a second of go hold, 1,600 frames (R92). -/
@[simp] def framesPerTenth : Nat := 1600

/-- The load timeout between DATA cells, 1,600 frames (R166, R167). -/
@[simp] def loadTimeout : Nat := 1600

/-- The highest gain of a slot (R16, R43). -/
@[simp] def gainTop : Nat := 512

end Sys2Proof.Config
end

