-- ==== Sys2Proof/Syntax.lean ====
section
/-!
DEFINITION. The commands and events of the 2416: one constructor of `Instr` for each row of
spec/opcode_table.json, with the operands that the row's step takes from outside or that select it.

The rows that are management commands (IDENTIFY to FREEZE_SHOW) carry no operand of their own: such a
row is the beginning of execution of the command at the head of the command queue (R160, R161), and
the command's operands are the parameter bytes of that queued cell, which the machine holds. Rows that
take a request which one block has handed to another name the request they take.
-/

namespace Sys2Proof

/-- Station ports 0 to 15. -/
abbrev Port := Fin 16
/-- Keys K1 to K4 and CALL, ids 0 to 4 (00_scope 2.3). -/
abbrev Key := Fin 5
/-- Trunk lanes 0 to 47. -/
abbrev Lane := Fin 48
/-- Channels 0 to 11. -/
abbrev Channel := Fin 12
/-- Crosspoint slots 0 to 63. -/
abbrev SlotIx := Fin 64
/-- Cue circuits 0 to 23. -/
abbrev CircuitIx := Fin 24
/-- Record places 0 to 1023 of table RAM. -/
abbrev Place := Fin 1024
/-- Scenes 0 to 7. -/
abbrev Scene := Fin 8

/-- The cue lamp A or B of a station, answered by ANSWER_A or ANSWER_B (00_scope 2.3). -/
inductive CrewLamp where
  | a | b
  deriving DecidableEq, Repr

/-- The twelve fault kinds (R180). -/
inductive FaultKind where
  | trunkCheck | trunkSyncLoss | portLost | keyOverrun | queueFull | chainLimit
  | ramCorrected | ramPoisoned | slotExhausted | cellCheck | noticeOverrun | loadTimeout
  deriving DecidableEq, Repr

/-- Where a fault arose (R180); two locations are equal when form and number agree. -/
inductive Location where
  | nowhere
  | port (p : Port)
  | place (i : Place)
  | circuit (c : CircuitIx)
  deriving DecidableEq, Repr

/-- What the link receiver of a port brings for one uplink frame period (R128): the bytes of a frame,
whose check makes it good or bad, or no frame at all. -/
inductive UplinkReport where
  | frame (bytes : List Byte)
  | missing
  deriving DecidableEq, Repr

/-- An error that a read of table RAM finds in a place (R50, R51). -/
inductive Upset where
  | oneBit
  | uncorrectable
  deriving DecidableEq, Repr

/-- The places of table RAM in which errors have newly arisen, as the next reads find them. -/
abbrev Upsets := List (Place × Upset)

/-- The commands and events of spec/opcode_table.json, in its order. -/
inductive Instr where
  /-- PIN_RESET (R1, R154): RESET_N asserted, with the value on the straps POS2 to POS0. -/
  | pinReset (straps : Fin 8)
  /-- RAM_INITIALISATION_END (R55). -/
  | ramInitialisationEnd
  /-- FRAME_START (R22). -/
  | frameStart
  /-- TRUNK_ARRIVAL (R144): the bytes of one frame period on TRUNK_IN. -/
  | trunkArrival (bytes : List Byte)
  /-- MISSING_FRAME (R143). -/
  | missingFrame
  /-- LINK_REPORT (R128): what the link receiver of port `p` reports for one uplink frame period. -/
  | linkReport (p : Port) (report : UplinkReport)
  /-- STATE_POST (R60): port `p`, whose resync flag is set, posts its STATE. -/
  | statePost (p : Port)
  /-- KEY_EVENT_TAKE (R62). -/
  | keyEventTake
  /-- WALK_START (R68): the waiting walk is granted the table port and reads its chain. -/
  | walkStart (upsets : Upsets)
  /-- WALK_END (R71): the walk in flight decides, or sets its outcome once its hits are made good. -/
  | walkEnd
  /-- BUSY_LAMP_REQUEST (R77): the walker takes the crosspoint set's request for key `(p, k)`. -/
  | busyLampRequest (p : Port) (k : Key)
  /-- CROSSPOINT_INSTALL (R6): the crosspoint set takes the walker's install. -/
  | crosspointInstall
  /-- REMOVE_KEY (R12): the crosspoint set takes the walker's remove key request for `(p, k)`. -/
  | removeKey (p : Port) (k : Key)
  /-- REMOVE_PORT_KEYS (R21): the crosspoint set takes the request of dropped port `p`. -/
  | removePortKeys (p : Port)
  /-- REMOVE_CIRCUIT (R96): the crosspoint set takes the request of circuit `c`. -/
  | removeCircuit (c : CircuitIx)
  /-- REMOVE_KEYS_AND_CUES (R20): the crosspoint set takes the soft reset's request. -/
  | removeKeysAndCues
  /-- PORT_ROW_RESET (R81): the walker resets the row of dropped port `p`. -/
  | portRowReset (p : Port)
  /-- LOST_MARK_SET (R84): the cue engine learns that port `p` went DOWN. -/
  | lostMarkSet (p : Port)
  /-- LOST_MARK_CLEAR (R84): the cue engine learns that port `p` came UP. -/
  | lostMarkClear (p : Port)
  /-- STANDBY_REQUEST (R88): the cue engine takes STANDBY(c) of the desk on port `p`. -/
  | standbyRequest (p : Port) (c : CircuitIx)
  /-- GO_REQUEST (R92): the cue engine takes GO(c) of the desk on port `p`. -/
  | goRequest (p : Port) (c : CircuitIx)
  /-- CANCEL_REQUEST (R94): the cue engine takes CANCEL(c) of the desk on port `p`. -/
  | cancelRequest (p : Port) (c : CircuitIx)
  /-- ANSWER (R89): the cue engine takes the answer press of lamp `l` on port `p`. -/
  | answer (p : Port) (l : CrewLamp)
  /-- STANDBY_TIMER_EXPIRY (R91) of circuit `c`. -/
  | standbyTimerExpiry (c : CircuitIx)
  /-- GO_HOLD_EXPIRY (R95) of circuit `c`. -/
  | goHoldExpiry (c : CircuitIx)
  /-- GO_NEXT (R115): the cue list takes GO NEXT of the desk on port `p`. -/
  | goNext (p : Port)
  /-- STANDBY_NEXT (R117): the cue list takes STANDBY NEXT of the desk on port `p`. -/
  | standbyNext (p : Port)
  /-- BACK (R118) of the desk on port `p`. -/
  | back (p : Port)
  /-- SKIP (R118) of the desk on port `p`. -/
  | skip (p : Port)
  /-- UNKNOWN_COMMAND (R161). -/
  | unknownCommand
  /-- IDENTIFY (R172). -/
  | identify
  /-- SOFT_RESET (R174). -/
  | softReset
  /-- WALKER_RESET (R82): the walker takes the soft reset's request. -/
  | walkerReset
  /-- CIRCUIT_ABORT (R107): the cue engine takes the soft reset's request. -/
  | circuitAbort
  /-- PORT_RESYNC (R142): station port `p` takes the soft reset's request. -/
  | portResync (p : Port)
  /-- PORT_SETUP (R140). -/
  | portSetup
  /-- PORT_STATUS (R173). -/
  | portStatus
  /-- LANE_MAP (R151). -/
  | laneMap
  /-- SLOT_ENABLE (R14). -/
  | slotEnable
  /-- SLOT_RETIRE (R15). -/
  | slotRetire
  /-- INSTALL_CROSSPOINT (R16). -/
  | installCrosspoint
  /-- REMOVE_CROSSPOINT (R17). -/
  | removeCrosspoint
  /-- SET_GAIN (R18). -/
  | setGain
  /-- READ_SLOT (R19). -/
  | readSlot
  /-- DIRECTORY_SETUP (R46). -/
  | directorySetup
  /-- WRITE_RECORDS (R166). -/
  | writeRecords
  /-- READ_RECORD (R56). -/
  | readRecord (upsets : Upsets)
  /-- SELECT_SCENE (R47). -/
  | selectScene
  /-- TABLE_PORT_GRANT (R52): the waiting access of the management engine is carried out. -/
  | tablePortGrant (upsets : Upsets)
  /-- RECORD_WRITE (R44): the oldest waiting record of the open load is granted the table port. -/
  | recordWrite
  /-- LOAD_TIMER_EXPIRY (R169). -/
  | loadTimerExpiry
  /-- RETRY_KEY (R79). -/
  | retryKey
  /-- CIRCUIT_SETUP (R85). -/
  | circuitSetup
  /-- READ_CIRCUIT (R105). -/
  | readCircuit
  /-- CUE_STANDBY (R124). -/
  | cueStandby
  /-- CUE_GO (R124). -/
  | cueGo
  /-- CUE_CANCEL (R124). -/
  | cueCancel
  /-- CUE_NEXT (R124). -/
  | cueNext
  /-- CUE_LIST_WRITE (R110). -/
  | cueListWrite
  /-- CUE_LIST_TRUNCATE (R111). -/
  | cueListTruncate
  /-- CUE_CURSOR (R119). -/
  | cueCursor
  /-- READ_CUE_LIST (R112). -/
  | readCueList
  /-- READ_LAST_CUE (R122). -/
  | readLastCue
  /-- READ_FAULTS (R188). -/
  | readFaults
  /-- CLEAR_FAULTS (R189). -/
  | clearFaults
  /-- LOCK_SHOW (R176). -/
  | lockShow
  /-- UNLOCK_SHOW (R176). -/
  | unlockShow
  /-- FREEZE_SHOW (R176). -/
  | freezeShow
  /-- FAULT_REPORT (R181): the fault log takes one report. -/
  | faultReport (kind : FaultKind) (loc : Location)
  deriving DecidableEq, Repr

end Sys2Proof
end

