-- ==== Sys2Proof/Decode.lean ====
section
/-!
DEFINITION. The decoding of spec/opcode_table.json's words. No row of this block's table gives a
pattern of bits ("fields" is empty and "fixed" is absent in all 69 rows): the 2416 takes no instruction
words, so no word spells a command. The bytes of trunk frames, station frames and cells are decoded
where they arrive (Machine/Frames.lean, Machine/Operands.lean).
-/

namespace Sys2Proof

/-- The command that a word of `nbits` bits spells by the table's bits: none, for no row gives bits. -/
def decodeTableWord (_nbits _w : Nat) : Option Instr := none

end Sys2Proof
end

