-- ==== Sys2Proof/Machine/State.lean ====
section
/-!
DEFINITION. The state of the 2416, block by block (00_scope 1.3), as plain data, and its value right
after pin reset. INVENTORY.md lists every field with its rule and its reset value.
-/

namespace Sys2Proof.Machine

/-! ### The trunk port (chapter 8) -/

/-- Sync state of the trunk port (R144). -/
inductive SyncState where
  | hunt | verify | locked
  deriving DecidableEq, Repr

/-- Timing source (R147). -/
inductive Timing where
  | localClock | trunk
  deriving DecidableEq, Repr

/-- A lane map entry (R151). -/
inductive LaneUse where
  | pass | owned
  deriving DecidableEq, Repr

/-- The outgoing cell field of a taken frame, as R152 leaves it. -/
inductive CellField where
  | free
  | carry (cell : List Byte)
  deriving DecidableEq, Repr

/-- The arrival of the current frame period, which its frame start uses (R147, R149). `lanes` are the
incoming samples, for the PASS lanes. -/
inductive Period where
  | taken (number : Byte) (upstreamLost : Bool) (lanes : Vector Sample 48) (field : CellField)
  | heldBad (number : Byte) (upstreamLost : Bool) (lanes : Vector Sample 48)
  | heldMissing
  | reinit
  deriving DecidableEq, Repr

/-- The trunk port (R144 to R156). -/
structure TrunkPort where
  sync : SyncState
  goodRun : Nat
  badRun : Nat
  timing : Timing
  clock : Stamp
  frameNumber : Byte
  laneMap : Vector LaneUse 48
  presented : Vector Sample 48
  lastGood : Vector Sample 48
  upstreamLost : Bool
  position : Fin 8
  period : Option Period
  txFrame : Option (List Byte)
  deriving DecidableEq, Repr

/-! ### The station ports (chapter 7) -/

/-- Kind of a station port (R127). -/
inductive PortKind where
  | unused | beltpack | panel | desk | cueBox
  deriving DecidableEq, Repr

/-- Link state of a station port (R128). -/
inductive LinkState where
  | down | training | up
  deriving DecidableEq, Repr

/-- One station port (R126). `keys` holds the seven keys, bit 0 being K1, 1 being down; `assembler` the
desk message bytes held; `replies` the bytes of each desk reply still to be sent, the first reply being
the one in sending; `txFrame` the downlink frame of the last frame start. -/
structure StationPort where
  kind : PortKind
  link : LinkState
  goodRun : Nat
  badRun : Nat
  fifo : List Sample
  lastGood : Sample
  lastHanded : Sample
  slips : Nat
  keys : BitVec 7
  resync : Bool
  assembler : List Byte
  replies : List (List Byte)
  gate : Nat
  floor : Nat
  master : Nat
  sidetone : Nat
  duck : Nat
  txFrame : Option (List Byte)
  deriving DecidableEq, Repr

/-! ### The talk path directory (chapter 3) -/

/-- The content of a record place, field by field as a cell carries it (3.1, 12.5): a record with
VALID = no keeps whatever its fields carry (R43). `tagCue` is the tag kind, `tagIndex` the port or
circuit, `tagKey` the key field. -/
structure Record where
  valid : Bool
  tagCue : Bool
  mode : BitVec 2
  cls : BitVec 3
  tagIndex : BitVec 5
  tagKey : BitVec 3
  scenes : Byte
  source : Byte
  dest : Byte
  gain : BitVec 16
  next : BitVec 16
  deriving DecidableEq, Repr

/-- How a stored content stands to its check code (R50, R51). -/
inductive Ecc where
  | clean | oneBit | uncorrectable
  deriving DecidableEq, Repr

/-- A record place: content, check code and poison mark (R40). For a one-bit error `content` is what
correction gives. -/
structure RecordPlace where
  content : Record
  ecc : Ecc
  poisoned : Bool
  deriving DecidableEq, Repr

/-- The content that RAM initialisation leaves in every place (R40). -/
def Record.initial : Record where
  valid := false
  tagCue := false
  mode := 0
  cls := 0
  tagIndex := 0
  tagKey := 0
  scenes := 0
  source := 0
  dest := 0
  gain := 0
  next := 0xFFFF

/-- A record place after RAM initialisation (R40, R55). -/
def RecordPlace.initial : RecordPlace := ⟨Record.initial, .clean, false⟩

/-- Table RAM: the places that differ from their initialised value, by rising place number. -/
abbrev TableRam := List (Nat × RecordPlace)

/-- The directory region, by its span; the index counts spans from place 0 (R45: the base is a multiple
of the span and base + span is at most 1024). -/
inductive Region where
  | span64 (i : Fin 16)
  | span128 (i : Fin 8)
  | span256 (i : Fin 4)
  | span512 (i : Fin 2)
  deriving DecidableEq, Repr

/-- Who is granted the free table port next, where R52 decides it. -/
inductive PortTurn where
  | either | management | walker
  deriving DecidableEq, Repr

/-- The talk path directory (R40 to R57). -/
structure Directory where
  ram : TableRam
  region : Region
  scene : Scene
  initialising : Bool
  turn : PortTurn
  deriving DecidableEq, Repr

/-! ### The crosspoint set (chapter 1) -/

/-- A source or destination (1.1). -/
inductive Endpoint where
  | port (p : Port)
  | lane (n : Lane)
  | channel (c : Channel)
  deriving DecidableEq, Repr

/-- Class of a slot (1.1). -/
inductive SlotClass where
  | listen | talk | priority | program | cueCall
  deriving DecidableEq, Repr

/-- An owner of a slot (1.1). -/
inductive Owner where
  | key (p : Port) (k : Key)
  | cue (c : CircuitIx)
  | controller (pin : Bool)
  deriving DecidableEq, Repr

/-- What a LIVE slot holds (1.1). -/
structure Connection where
  source : Endpoint
  dest : Endpoint
  cls : SlotClass
  gain : Nat
  owners : List Owner
  pinned : Bool
  stamp : Stamp
  deriving DecidableEq, Repr

/-- A slot: its state, and its record where it is LIVE. A slot that is not LIVE holds the cleared
record, which has one value only (R2). -/
inductive Slot where
  | lockedOut
  | free
  | live (c : Connection)
  | retired
  deriving DecidableEq, Repr

/-- An install request (1.4). -/
structure Install where
  source : Endpoint
  dest : Endpoint
  cls : SlotClass
  gain : Nat
  owner : Owner
  deriving DecidableEq, Repr

/-- The crosspoint set (R1 to R21). `abandoned` is the install that a walk abandoned at soft reset may
have sent and the crosspoint set has not taken (R82). -/
structure CrosspointSet where
  slots : Vector Slot 64
  pointer : SlotIx
  abandoned : Option Install
  deriving DecidableEq, Repr

/-! ### The path walker (chapter 4) -/

/-- State of a key (R63). -/
inductive KeyState where
  | off | held | latched | missed | refused
  deriving DecidableEq, Repr

/-- Mode of a key (R63). -/
inductive KeyMode where
  | momentary | latching | auto
  deriving DecidableEq, Repr

/-- Lamp of a key (R63). -/
inductive KeyLamp where
  | off | on | miss | busy
  deriving DecidableEq, Repr

/-- An entry of the key state table (R63). -/
structure KeyEntry where
  state : KeyState
  mode : KeyMode
  stamp : Stamp
  swallow : Bool
  lamp : KeyLamp
  calls : List Port
  deriving DecidableEq, Repr

/-- The entry after pin reset, soft reset and port drop (R63). -/
def KeyEntry.initial : KeyEntry := ⟨.off, .momentary, 0, false, .off, []⟩

/-- An event of the key event queue (4.1). -/
inductive KeyEvent where
  | press (p : Port) (k : Key) (stamp : Stamp)
  | release (p : Port) (k : Key) (stamp : Stamp)
  | state (p : Port) (bitmap : BitVec 7) (stamp : Stamp)
  | cueOpen (c : CircuitIx)
  | retry (p : Port) (k : Key)
  deriving DecidableEq, Repr

/-- The tag a walk looks for (R68). -/
inductive Tag where
  | key (p : Port) (k : Key)
  | cue (c : CircuitIx)
  deriving DecidableEq, Repr

/-- A key of a STATE event that has not been applied yet (R67). -/
structure KeyLevel where
  port : Port
  key : Key
  down : Bool
  stamp : Stamp
  deriving DecidableEq, Repr

/-- A hit of a walk: a place and the record read there (R69). -/
structure Hit where
  place : Place
  content : Record
  deriving DecidableEq, Repr

/-- How the reading of a walk ended (R69, R70). -/
inductive ReadingEnd where
  | poisoned (i : Place)
  | invalid (i : Place)
  | chainEnd
  | chainLimit (i : Place)
  deriving DecidableEq, Repr

/-- What a walk has read (R68, R69): the home record, the places visited, the hits and the hits
ignored, the first ignored hit, the first unarmed match, the last valid place visited, the end of the
reading, and the scrubs held, in the order of reading. -/
structure Reading where
  home : Place
  visited : Nat
  hits : List Hit
  ignored : Nat
  firstIgnored : Option Place
  firstUnarmed : Option Place
  lastValid : Option Place
  ending : ReadingEnd
  scrubs : List Place
  deriving DecidableEq, Repr

/-- A walk whose reading is done: either it has yet to decide (R71), or it makes its hits good one at a
time (R72), `rest` being the hits to come and `succeeded` whether one has succeeded. -/
inductive WalkPhase where
  | read
  | making (rest : List Hit) (succeeded : Bool)
  deriving DecidableEq, Repr

/-- The walk in flight (R68 to R76, R80). `busyHeld` is a BUSY request held until the lamp is set (R73);
`suppressed` that its port dropped, or its circuit entered IDLE, before its reading ended (R71, R96, R131). -/
structure Walk where
  tag : Tag
  retry : Bool
  reading : Reading
  phase : WalkPhase
  busyHeld : Bool
  suppressed : Bool
  deriving DecidableEq, Repr

/-- What the walker has in hand (R62). `rest` holds the keys of a STATE event still to be applied. -/
inductive Job where
  | idle
  | waiting (tag : Tag) (retry : Bool) (rest : List KeyLevel)
  | walking (w : Walk) (rest : List KeyLevel)
  deriving DecidableEq, Repr

/-- The path walker (R58 to R82): event queue, key state table, call counts and the work in hand. -/
structure Walker where
  queue : List KeyEvent
  keys : Vector (Vector KeyEntry 5) 16
  calls : Vector Nat 16
  job : Job
  deriving DecidableEq, Repr

/-! ### The mix engine (chapter 2) -/

/-- The clip counters, the mix engine's only state (R36). -/
structure MixEngine where
  portClips : Vector Nat 16
  channelClips : Vector Nat 12
  deriving DecidableEq, Repr

/-! ### The cue engine (chapter 5) and the cue list (chapter 6) -/

/-- A cue number, 0 to 9999. NONE is written `none` where it may stand. -/
abbrev CueNumber := Fin 10000

/-- The answer rule of a circuit (5.1). -/
inductive AnswerRule where
  | all | any
  deriving DecidableEq, Repr

/-- The state of a circuit (5.1). -/
inductive CircuitState where
  | idle | standby | ready | late | go
  deriving DecidableEq, Repr

/-- A member of a circuit with its answered and lost marks (5.1). -/
structure Member where
  port : Port
  lamp : CrewLamp
  answered : Bool
  lost : Bool
  deriving DecidableEq, Repr

/-- A deadline and whether the show clock has reached it since it was set (R148). -/
structure Deadline where
  due : Stamp
  reached : Bool
  deriving DecidableEq, Repr

/-- Kind of an outcome (R104). -/
inductive OutcomeKind where
  | answered | lateAnswered | unanswered | cancelled | aborted
  deriving DecidableEq, Repr

/-- An outcome record (R104). -/
structure Outcome where
  kind : OutcomeKind
  cue : Option CueNumber
  stamp : Stamp
  deriving DecidableEq, Repr

/-- A cue circuit: its setup (members, answer rule, standby timeout in seconds, go hold in tenths, GO
without answer) and its run state (5.1, R83). -/
structure Circuit where
  members : List Member
  rule : AnswerRule
  timeout : Nat
  hold : Nat
  goUnanswered : Bool
  state : CircuitState
  late : Bool
  cue : Option CueNumber
  standbyDeadline : Option Deadline
  holdDeadline : Option Deadline
  pending : Bool
  pendingCue : Option CueNumber
  history : List Outcome
  deriving DecidableEq, Repr

/-- An entry of the cue list (6.1); bit c of `circuits` is circuit c. -/
structure CueEntry where
  cue : CueNumber
  circuits : BitVec 24
  auto : Bool
  deriving DecidableEq, Repr

/-- The last-cue record (R120): cue number, lowest-numbered circuit, number of circuits, stamp. -/
structure LastCue where
  cue : CueNumber
  lowest : CircuitIx
  count : Nat
  stamp : Stamp
  deriving DecidableEq, Repr

/-- The cue list (R109 to R122). Its length is the length of `entries`. -/
structure CueList where
  entries : List CueEntry
  cursor : Nat
  lastCue : Option LastCue
  beforeFault : Option LastCue
  deriving DecidableEq, Repr

/-! ### The management engine (chapters 9 and 10) -/

/-- Reply statuses (R161, 12.6). A desk's ACCEPTED has the code of DONE (12.3) and is written `done`. -/
inductive Status where
  | done | unknown | badParam | locked | align | full | noSlot | fullOwners | notOwner | noLoad | timeout
  | badRecord | poisoned | notHeld | circuitBusy | notInStandby | unanswered | emptyCircuit | already
  | listEnd | listStart
  deriving DecidableEq, Repr

/-- A queued command: the tag, code and parameters of its cell (R159). -/
structure Command where
  tag : Byte
  code : Byte
  params : List Byte
  deriving DecidableEq, Repr

/-- A queued reply: a REPLY cell but for credit and check (R163). -/
structure Reply where
  tag : Byte
  status : Status
  clamped : Bool
  params : List Byte
  deriving DecidableEq, Repr

/-- Why a walk sends PATH_MISS (R75, R76). -/
inductive MissReason where
  | poisoned | chainLimit | emptyHome | unarmed | noMatch | excessHits
  deriving DecidableEq, Repr

/-- The contents of a notice (R165). A SLOT_FULL with `evicted` has the reason EVICTED. -/
inductive NoticeBody where
  | pathMiss (tag : Tag) (reason : MissReason) (place : Place) (visited ignored : Nat)
  | fault (kind : FaultKind) (loc : Location) (stamp : Stamp)
  | cueEvent (c : CircuitIx) (state : CircuitState) (cue : Option CueNumber) (late : Bool) (stamp : Stamp)
  | slotFull (slot : SlotIx) (live retired : Nat) (evicted : Option (Endpoint × Endpoint × SlotClass))
  deriving DecidableEq, Repr

/-- A queued notice with its sequence number (R164). -/
structure Notice where
  seq : Byte
  body : NoticeBody
  deriving DecidableEq, Repr

/-- An open load (R166). The pointer is `start + written` (R167) and is not stored twice. -/
structure Load where
  start : Nat
  count : Nat
  expected : Nat
  written : Nat
  waiting : List Record
  clamped : Bool
  deadline : Deadline
  deriving DecidableEq, Repr

/-- An access of table RAM that has passed its checks and waits for the table port (R162). -/
inductive Access where
  | readRecord (i : Place)
  | setRegion (r : Region)
  | setScene (s : Scene)
  deriving DecidableEq, Repr

/-- What the command at the head of the command queue is doing: nothing yet, running an open load,
waiting for the table port, or waiting for the blocks to take the requests of a soft reset, `discarded`
commands having been discarded. Its reply entry is reserved unless it is doing nothing (R160). -/
inductive Execution where
  | none
  | load (l : Load)
  | access (a : Access)
  | softReset (discarded : Nat)
  deriving DecidableEq, Repr

/-- The show lock (R176). -/
inductive LockState where
  | unlocked | locked | frozen
  deriving DecidableEq, Repr

/-- The management engine (R157 to R175). -/
structure Management where
  commands : List Command
  replies : List Reply
  notices : List Notice
  seq : Byte
  lock : LockState
  execution : Execution
  deriving DecidableEq, Repr

/-- A fault record (R180); its severity is fixed by its kind. -/
structure FaultRecord where
  kind : FaultKind
  loc : Location
  stamp : Stamp
  count : Nat
  overflow : Bool
  deriving DecidableEq, Repr

/-- The fault log, oldest record first (R181). -/
structure FaultLog where
  records : List FaultRecord
  readPos : Nat
  deriving DecidableEq, Repr

/-! ### Requests between blocks -/

/-- A desk request that names its kind and circuit (R123). -/
inductive DeskRequest where
  | standby (c : CircuitIx)
  | go (c : CircuitIx)
  | cancel (c : CircuitIx)
  | goNext
  | standbyNext
  | back
  | skip
  deriving DecidableEq, Repr

/-- A request that one block has handed to another and that the other has not taken yet (00_scope 1.3:
blocks reach each other's state by requests to the owner). A remove key request is taken in the step that
sends it, or just before (log 5), and a desk request knows whether its result is still wanted: a drop of its
port, taken while it is in transit, has the result discarded (R130). -/
inductive Request where
  | removePortKeys (p : Port)
  | portRowReset (p : Port)
  | removeCircuit (c : CircuitIx)
  | removeKeysAndCues
  | walkerReset
  | circuitAbort
  | portResync (p : Port)
  | busyLamp (p : Port) (k : Key)
  | lostMark (p : Port) (lost : Bool)
  | answer (p : Port) (l : CrewLamp)
  | desk (p : Port) (seq : Byte) (wanted : Bool) (r : DeskRequest)
  | fault (kind : FaultKind) (loc : Location)
  deriving DecidableEq, Repr

/-! ### The machine -/

/-- The whole 2416, with the queue of commands waiting to be given to it. -/
structure State where
  pending : List Instr
  trunk : TrunkPort
  ports : Vector StationPort 16
  group : Fin 3
  directory : Directory
  walker : Walker
  xps : CrosspointSet
  mixer : MixEngine
  circuits : Vector Circuit 24
  cueList : CueList
  management : Management
  faultLog : FaultLog
  requests : List Request
  deriving DecidableEq, Repr

/-- Why a step may fault. The spec gives every command an effect in every state, so no meaning faults:
no constructor stands here, which is safe. -/
inductive Fault where
  deriving DecidableEq, Repr

/-- Why a step may be refused. -/
inductive Refusal where
  /-- Raised by an arm of `exec` whose command has no meaning yet; safe. No arm raises it: every row of
  the table has its meaning. -/
  | notModelled (mnemonic : String)
  deriving DecidableEq, Repr

/-- The trunk port after pin reset (R156), with the ring position read from the straps (R154). -/
def TrunkPort.initial (straps : Fin 8) : TrunkPort where
  sync := .hunt
  goodRun := 0
  badRun := 0
  timing := .localClock
  clock := 0
  frameNumber := 0
  laneMap := Vector.replicate 48 .pass
  presented := Vector.replicate 48 0
  lastGood := Vector.replicate 48 0
  upstreamLost := false
  position := straps
  period := none
  txFrame := none

/-- A station port after pin reset (R126). -/
def StationPort.initial : StationPort where
  kind := .unused
  link := .down
  goodRun := 0
  badRun := 0
  fifo := []
  lastGood := 0
  lastHanded := 0
  slips := 0
  keys := 0
  resync := false
  assembler := []
  replies := []
  gate := 0
  floor := 0
  master := 256
  sidetone := 0
  duck := 64
  txFrame := none

/-- The directory after pin reset: RAM initialisation runs and holds the table port (R45, R41, R55). -/
def Directory.initial (ram : TableRam) : Directory := ⟨ram, .span64 0, 0, true, .either⟩

/-- The crosspoint set after pin reset (R2). -/
def CrosspointSet.initial : CrosspointSet := ⟨Vector.replicate 64 .lockedOut, 0, none⟩

/-- The walker after pin reset (R63, R82). -/
def Walker.initial : Walker :=
  ⟨[], Vector.replicate 16 (Vector.replicate 5 KeyEntry.initial), Vector.replicate 16 0, .idle⟩

/-- The mix engine after pin reset (R36). -/
def MixEngine.initial : MixEngine := ⟨Vector.replicate 16 0, Vector.replicate 12 0⟩

/-- A circuit after pin reset (R83). -/
def Circuit.initial : Circuit where
  members := []
  rule := .all
  timeout := 0
  hold := 30
  goUnanswered := true
  state := .idle
  late := false
  cue := none
  standbyDeadline := none
  holdDeadline := none
  pending := false
  pendingCue := none
  history := []

/-- The cue list after pin reset (R109, R120, R121). -/
def CueList.initial : CueList := ⟨[], 0, none, none⟩

/-- The management engine after pin reset (R175, R176). -/
def Management.initial : Management := ⟨[], [], [], 0, .unlocked, .none⟩

/-- The fault log after pin reset (R190). -/
def FaultLog.initial : FaultLog := ⟨[], 0⟩

/-- Every block at its pin-reset values (00_scope 2.6), given the straps, the content table RAM still
has while its initialisation runs (R55), and the queue of waiting commands. -/
def State.initial (straps : Fin 8) (ram : TableRam) (pending : List Instr) : State where
  pending := pending
  trunk := TrunkPort.initial straps
  ports := Vector.replicate 16 StationPort.initial
  group := 0
  directory := Directory.initial ram
  walker := Walker.initial
  xps := CrosspointSet.initial
  mixer := MixEngine.initial
  circuits := Vector.replicate 24 Circuit.initial
  cueList := CueList.initial
  management := Management.initial
  faultLog := FaultLog.initial
  requests := []

/-- The machine right after pin reset. DESIGN CHOICE (log 3): the straps read 0 and table RAM lists
nothing, which no rule fixes before RAM initialisation ends. -/
def State.reset : State := State.initial 0 [] []

/-! ### Updates of one field -/

/-- Set the queue of waiting commands. -/
def State.setPending (s : State) (x : List Instr) : State := { s with pending := x }
/-- Set the trunk port. -/
def State.setTrunk (s : State) (x : TrunkPort) : State := { s with trunk := x }
/-- Set the station ports. -/
def State.setPorts (s : State) (x : Vector StationPort 16) : State := { s with ports := x }
/-- Set the downlink group counter. -/
def State.setGroup (s : State) (x : Fin 3) : State := { s with group := x }
/-- Set the directory. -/
def State.setDirectory (s : State) (x : Directory) : State := { s with directory := x }
/-- Set the walker. -/
def State.setWalker (s : State) (x : Walker) : State := { s with walker := x }
/-- Set the crosspoint set. -/
def State.setXps (s : State) (x : CrosspointSet) : State := { s with xps := x }
/-- Set the mix engine. -/
def State.setMixer (s : State) (x : MixEngine) : State := { s with mixer := x }
/-- Set the circuits. -/
def State.setCircuits (s : State) (x : Vector Circuit 24) : State := { s with circuits := x }
/-- Set the cue list. -/
def State.setCueList (s : State) (x : CueList) : State := { s with cueList := x }
/-- Set the management engine. -/
def State.setManagement (s : State) (x : Management) : State := { s with management := x }
/-- Set the fault log. -/
def State.setFaultLog (s : State) (x : FaultLog) : State := { s with faultLog := x }
/-- Set the requests handed over and not taken. -/
def State.setRequests (s : State) (x : List Request) : State := { s with requests := x }

end Sys2Proof.Machine
end

