-- ==== Sys2Proof/Machine/Operands.lean ====
section
/-!
DEFINITION. The fields that bytes carry: parameters of command cells, endpoints, classes, directory
records, cue numbers and locations, each read and written as chapter 12 lays it out, high byte first
(R191). Bits that no layout names are not read and are sent as 0 (R191).
-/

namespace Sys2Proof.Machine

/-! ### Bytes -/

/-- A number as one byte. -/
def byte (n : Nat) : Byte := BitVec.ofNat 8 n

/-- The byte at position `i` of a list; a byte that is not there reads 0. -/
def byteAt (bytes : List Byte) (i : Nat) : Byte := bytes.getD i 0

/-- The 16-bit value at positions `i` and `i + 1`, high byte first (R191). -/
def wordAt (bytes : List Byte) (i : Nat) : BitVec 16 := byteAt bytes i ++ byteAt bytes (i + 1)

/-- The 24-bit value at positions `i` to `i + 2`, high byte first (R191). -/
def word24At (bytes : List Byte) (i : Nat) : BitVec 24 :=
  byteAt bytes i ++ byteAt bytes (i + 1) ++ byteAt bytes (i + 2)

/-- A value of two bytes, high byte first (R191). -/
def bytesOf16 (x : BitVec 16) : List Byte := [x.extractLsb' 8 8, x.extractLsb' 0 8]

/-- A value of three bytes, high byte first (R191). -/
def bytesOf24 (x : BitVec 24) : List Byte :=
  [x.extractLsb' 16 8, x.extractLsb' 8 8, x.extractLsb' 0 8]

/-- A value of four bytes, high byte first (R191). -/
def bytesOf32 (x : BitVec 32) : List Byte :=
  [x.extractLsb' 24 8, x.extractLsb' 16 8, x.extractLsb' 8 8, x.extractLsb' 0 8]

/-- A number as two bytes, high byte first (R191). -/
def bytes16 (n : Nat) : List Byte := bytesOf16 (BitVec.ofNat 16 n)

/-- A field of one byte that holds none (12.4). -/
def noneByte : Byte := 0xFF

/-- A Bool as a number. -/
def bit (b : Bool) : Nat := if b then 1 else 0

/-- The ten parameter bytes of a cell: those given, then 0 (R191, 12.5). -/
def parameters (bytes : List Byte) : List Byte := (bytes ++ List.replicate 10 0).take 10

/-- A number bounded by `n`, as an index; `none` when it is out of range. -/
def index? (n : Nat) (x : Nat) : Option (Fin n) := if h : x < n then some ⟨x, h⟩ else none

/-- A sum check byte (R191): with it the bytes sum to 0 modulo 256. -/
def sumCheck (bytes : List Byte) : Byte := 0 - bytes.sum

/-- The bytes with their sum check behind them. -/
def withSumCheck (bytes : List Byte) : List Byte := bytes ++ [sumCheck bytes]

/-- The bytes, their check included, sum to 0 modulo 256 (R191). -/
def sumGood (bytes : List Byte) : Bool := bytes.sum == 0

/-! ### Shared encodings (12.4) -/

/-- An endpoint byte: bits 7-6 kind, bits 5-0 index; `none` for no known kind or an index out of
range. -/
def Endpoint.decode (b : Byte) : Option Endpoint :=
  let i := (b.extractLsb' 0 6).toNat
  match (b.extractLsb' 6 2).toNat with
  | 0 => (index? 16 i).map .port
  | 1 => (index? 48 i).map .lane
  | 2 => (index? 12 i).map .channel
  | _ => none

/-- The byte of an endpoint. -/
def Endpoint.encode : Endpoint → Byte
  | .port p => byte p.val
  | .lane n => byte (64 + n.val)
  | .channel c => byte (128 + c.val)

/-- An endpoint that is a channel. -/
def Endpoint.isChannel : Endpoint → Bool
  | .channel _ => true
  | .port _ | .lane _ => false

/-- An endpoint that is a port. -/
def Endpoint.isPort : Endpoint → Bool
  | .port _ => true
  | .lane _ | .channel _ => false

/-- The slot class of a class code; `none` for CALL and for codes that are no class. -/
def SlotClass.decode (code : Nat) : Option SlotClass :=
  match code with
  | 0 => some .talk
  | 1 => some .priority
  | 2 => some .program
  | 4 => some .cueCall
  | 5 => some .listen
  | _ => none

/-- The class code of a slot class. -/
def SlotClass.code : SlotClass → Nat
  | .talk => 0
  | .priority => 1
  | .program => 2
  | .cueCall => 4
  | .listen => 5

/-- The class code of CALL. -/
def callCode : Nat := 3

/-- Port kinds. -/
def PortKind.decode (code : Nat) : Option PortKind :=
  match code with
  | 0 => some .unused
  | 1 => some .beltpack
  | 2 => some .panel
  | 3 => some .desk
  | 4 => some .cueBox
  | _ => none

/-- Code of a port kind. -/
def PortKind.code : PortKind → Nat
  | .unused => 0
  | .beltpack => 1
  | .panel => 2
  | .desk => 3
  | .cueBox => 4

/-- Code of a link state. -/
def LinkState.code : LinkState → Nat
  | .down => 0
  | .training => 1
  | .up => 2

/-- Code of a key state. -/
def KeyState.code : KeyState → Nat
  | .off => 0
  | .held => 1
  | .latched => 2
  | .missed => 3
  | .refused => 4

/-- Code of a key mode. -/
def KeyMode.code : KeyMode → Nat
  | .momentary => 0
  | .latching => 1
  | .auto => 2

/-- The key mode of a MODE code; `none` for the code that is no mode. -/
def KeyMode.decode (code : BitVec 2) : Option KeyMode :=
  match code.toNat with
  | 0 => some .momentary
  | 1 => some .latching
  | 2 => some .auto
  | _ => none

/-- Code of a key lamp. -/
def KeyLamp.code : KeyLamp → Nat
  | .off => 0
  | .on => 1
  | .miss => 2
  | .busy => 3

/-- Code of a circuit state (12.4). -/
def CircuitState.code : CircuitState → Nat
  | .idle => 0
  | .standby => 1
  | .ready => 2
  | .late => 3
  | .go => 4

/-- Code of a slot state. -/
def Slot.code : Slot → Nat
  | .lockedOut => 0
  | .free => 1
  | .live _ => 2
  | .retired => 3

/-- Code of a sync state. -/
def SyncState.code : SyncState → Nat
  | .hunt => 0
  | .verify => 1
  | .locked => 2

/-- Code of a timing source. -/
def Timing.code : Timing → Nat
  | .localClock => 0
  | .trunk => 1

/-- Code of a show lock state. -/
def LockState.code : LockState → Nat
  | .unlocked => 0
  | .locked => 1
  | .frozen => 2

/-- Code of an outcome kind (12.5). -/
def OutcomeKind.code : OutcomeKind → Nat
  | .answered => 1
  | .lateAnswered => 2
  | .unanswered => 3
  | .cancelled => 4
  | .aborted => 5

/-- Code of an answer rule (12.6). -/
def AnswerRule.code : AnswerRule → Nat
  | .all => 0
  | .any => 1

/-- The answer rule of a code (12.6). -/
def AnswerRule.decode (code : Nat) : Option AnswerRule :=
  match code with
  | 0 => some .all
  | 1 => some .any
  | _ => none

/-- A field of one byte with two values, 0 and 1. -/
def flagDecode (code : Nat) : Option Bool :=
  match code with
  | 0 => some false
  | 1 => some true
  | _ => none

/-- Code of a reply status (12.6). -/
def Status.code : Status → Nat
  | .done => 0x00
  | .unknown => 0x01
  | .badParam => 0x02
  | .locked => 0x03
  | .align => 0x04
  | .full => 0x05
  | .noSlot => 0x06
  | .fullOwners => 0x07
  | .notOwner => 0x08
  | .noLoad => 0x09
  | .timeout => 0x0A
  | .badRecord => 0x0B
  | .poisoned => 0x0C
  | .notHeld => 0x0D
  | .circuitBusy => 0x0E
  | .notInStandby => 0x10
  | .unanswered => 0x11
  | .emptyCircuit => 0x12
  | .already => 0x13
  | .listEnd => 0x14
  | .listStart => 0x15

/-- A cue number or NONE in two bytes (12.4). -/
def cueBytes : Option CueNumber → List Byte
  | some n => bytes16 n.val
  | none => bytes16 0xFFFF

/-- A stamp in four bytes, or none (12.4). -/
def stampBytes : Option Stamp → List Byte
  | some x => bytesOf32 x
  | none => bytesOf32 0xFFFFFFFF

/-- A circuit index in one byte, or none (12.4). -/
def circuitByte : Option CircuitIx → Byte
  | some c => byte c.val
  | none => noneByte

/-- A slot index in one byte, or none (12.4). -/
def slotByte : Option SlotIx → Byte
  | some i => byte i.val
  | none => noneByte

/-! ### Directory records (12.5) -/

/-- The directory record in P0 to P8 of a DATA cell. -/
def Record.decode (ps : List Byte) : Record where
  valid := (byteAt ps 0).getLsbD 7
  tagCue := (byteAt ps 0).getLsbD 6
  mode := (byteAt ps 0).extractLsb' 4 2
  cls := (byteAt ps 0).extractLsb' 0 3
  tagIndex := (byteAt ps 1).extractLsb' 3 5
  tagKey := (byteAt ps 1).extractLsb' 0 3
  scenes := byteAt ps 2
  source := byteAt ps 3
  dest := byteAt ps 4
  gain := wordAt ps 5
  next := wordAt ps 7

/-- The nine bytes P0 to P8 of a directory record. -/
def Record.encode (r : Record) : List Byte :=
  [BitVec.ofBool r.valid ++ BitVec.ofBool r.tagCue ++ r.mode ++ (0 : BitVec 1) ++ r.cls,
   r.tagIndex ++ r.tagKey, r.scenes, r.source, r.dest]
  ++ bytesOf16 r.gain ++ bytesOf16 r.next

/-- The tag of a record; `none` when it is out of range (R42). -/
def Record.tag? (r : Record) : Option Tag :=
  if r.tagCue then
    if r.tagKey.toNat = 0 then (index? 24 r.tagIndex.toNat).map .cue else none
  else
    match index? 16 r.tagIndex.toNat, index? 5 r.tagKey.toNat with
    | some p, some k => some (.key p k)
    | _, _ => none

/-- NEXT = END (3.1). -/
def Record.isLast (r : Record) : Bool := r.next == 0xFFFF

/-! ### The directory region (R45, R46) -/

/-- The span of a region. -/
def Region.span : Region → Nat
  | .span64 _ => 64
  | .span128 _ => 128
  | .span256 _ => 256
  | .span512 _ => 512

/-- The base of a region. -/
def Region.base : Region → Nat
  | .span64 i => 64 * i.val
  | .span128 i => 128 * i.val
  | .span256 i => 256 * i.val
  | .span512 i => 512 * i.val

/-- Code of the span in the READ RECORD reply (12.5). -/
def Region.spanCode : Region → Nat
  | .span64 _ => 0
  | .span128 _ => 1
  | .span256 _ => 2
  | .span512 _ => 3

/-- What DIRECTORY SETUP makes of a base and a span: the region, or the first check that fails (R46). -/
def Region.check (base span : Nat) : Except Status Region :=
  if span ≠ 64 ∧ span ≠ 128 ∧ span ≠ 256 ∧ span ≠ 512 then .error .badParam
  else if base > 1023 ∨ base + span > 1024 then .error .badParam
  else if base % span ≠ 0 then .error .align
  else
    match span with
    | 64 => match index? 16 (base / 64) with
      | some i => .ok (.span64 i)
      | none => .error .badParam
    | 128 => match index? 8 (base / 128) with
      | some i => .ok (.span128 i)
      | none => .error .badParam
    | 256 => match index? 4 (base / 256) with
      | some i => .ok (.span256 i)
      | none => .error .badParam
    | _ => match index? 2 (base / 512) with
      | some i => .ok (.span512 i)
      | none => .error .badParam

/-- The base and the span of a region as the DIRECTORY SETUP reply carries them. -/
def Region.bytes (r : Region) : List Byte := bytes16 r.base ++ bytes16 r.span

/-! ### Faults and notices (R180, 12.5) -/

/-- Code of a fault kind. -/
def faultCode : FaultKind → Nat
  | .trunkCheck => 1
  | .trunkSyncLoss => 2
  | .portLost => 3
  | .keyOverrun => 4
  | .queueFull => 5
  | .chainLimit => 6
  | .ramCorrected => 7
  | .ramPoisoned => 8
  | .slotExhausted => 9
  | .cellCheck => 10
  | .noticeOverrun => 11
  | .loadTimeout => 12

/-- The severity SEVERE, fixed by the kind (R180); every other kind is MINOR. -/
def severe : FaultKind → Bool
  | .trunkSyncLoss | .ramPoisoned => true
  | .trunkCheck | .portLost | .keyOverrun | .queueFull | .chainLimit | .ramCorrected | .slotExhausted
  | .cellCheck | .noticeOverrun | .loadTimeout => false

/-- A location in two bytes: bits 15-14 form, bits 9-0 number. -/
def locationBytes : Location → List Byte
  | .nowhere => bytes16 0
  | .port p => bytes16 (0x4000 + p.val)
  | .place i => bytes16 (0x8000 + i.val)
  | .circuit c => bytes16 (0xC000 + c.val)

/-- Code of a PATH_MISS reason. -/
def MissReason.code : MissReason → Nat
  | .poisoned => 0
  | .chainLimit => 1
  | .emptyHome => 2
  | .unarmed => 3
  | .noMatch => 4
  | .excessHits => 5

/-- P0 to P2 of a PATH_MISS: tag kind, port or circuit, key field (a cue tag's key field is 0, 3.1). -/
def Tag.bytes : Tag → List Byte
  | .key p k => [0, byte p.val, byte k.val]
  | .cue c => [1, byte c.val, 0]

/-- The notice kind, the code byte of the cell. -/
def NoticeBody.code : NoticeBody → Nat
  | .pathMiss .. => 1
  | .fault .. => 2
  | .cueEvent .. => 3
  | .slotFull .. => 4

/-- The parameter bytes of a notice (12.5). -/
def NoticeBody.params : NoticeBody → List Byte
  | .pathMiss tag reason place visited ignored =>
    parameters (tag.bytes ++ [byte reason.code] ++ bytes16 place.val ++ [byte visited, byte ignored])
  | .fault kind loc stamp =>
    parameters ([byte (faultCode kind), byte (128 * bit (severe kind))] ++ locationBytes loc
      ++ bytesOf32 stamp)
  | .cueEvent c state cue late stamp =>
    parameters ([byte c.val, byte state.code] ++ cueBytes cue ++ [byte (bit late)] ++ bytesOf32 stamp)
  | .slotFull slot live retired evicted =>
    parameters ([byte (bit evicted.isSome), byte slot.val, byte live, byte retired]
      ++ match evicted with
        | some (src, dst, cls) => [src.encode, dst.encode, byte cls.code]
        | none => [noneByte, noneByte, noneByte])

/-- The desk request kinds (12.3), with the circuit byte checked (R123, R137): the request, or the
refusal that reaches no block. -/
def DeskRequest.decode (kind circuit : Nat) : Except Status DeskRequest :=
  let onCircuit (f : CircuitIx → DeskRequest) : Except Status DeskRequest :=
    match index? 24 circuit with
    | some c => .ok (f c)
    | none => .error .badParam
  let onList (r : DeskRequest) : Except Status DeskRequest :=
    if circuit = 255 then .ok r else .error .badParam
  match kind with
  | 1 => onCircuit .standby
  | 2 => onCircuit .go
  | 3 => onCircuit .cancel
  | 4 => onList .goNext
  | 5 => onList .standbyNext
  | 6 => onList .back
  | 7 => onList .skip
  | _ => .error .unknown

end Sys2Proof.Machine
end

