-- ==== Sys2Proof/Machine/Flags.lean ====
section
/-!
DEFINITION. What the 2416 works out from its state without holding it: slot counts, the pinned flag,
the answer rule, the result of a GO, crew lamps, desk lamps and call lamps, the duck condition, the
credit.
-/

namespace Sys2Proof.Machine

/-! ### Crosspoint slots -/

/-- The connection of a LIVE slot. -/
def Slot.connection? : Slot → Option Connection
  | .live c => some c
  | .lockedOut | .free | .retired => none

/-- The LIVE connections, by rising slot index (R2: the mix engine takes LIVE slots and no others). -/
def CrosspointSet.connections (x : CrosspointSet) : List Connection :=
  x.slots.toList.filterMap Slot.connection?

/-- The number of slots in a state, given by its code. -/
def CrosspointSet.count (x : CrosspointSet) (code : Nat) : Nat :=
  x.slots.toList.countP fun s => s.code == code

/-- The number of FREE slots. -/
def CrosspointSet.freeCount (x : CrosspointSet) : Nat := x.count 1
/-- The number of LIVE slots. -/
def CrosspointSet.liveCount (x : CrosspointSet) : Nat := x.count 2
/-- The number of RETIRED slots. -/
def CrosspointSet.retiredCount (x : CrosspointSet) : Nat := x.count 3

/-- An owner that pins its slot (R5). -/
def Owner.pins : Owner → Bool
  | .cue _ => true
  | .controller pin => pin
  | .key _ _ => false

/-- The pinned flag of an owner list (R5). -/
def pinnedBy (owners : List Owner) : Bool := owners.any Owner.pins

/-- Two owners are the same; CONTROLLER is one owner whatever its pin mark (R4). -/
def Owner.same : Owner → Owner → Bool
  | .key p k, .key p' k' => p == p' && k == k'
  | .cue c, .cue c' => c == c'
  | .controller _, .controller _ => true
  | _, _ => false

/-- The owner is CONTROLLER. -/
def Owner.isController : Owner → Bool
  | .controller _ => true
  | .key _ _ | .cue _ => false

/-- The class ducks its port destination, and may evict (R8, R30). -/
def SlotClass.calls : SlotClass → Bool
  | .priority | .cueCall => true
  | .listen | .talk | .program => false

/-- Port `p` is ducked (R30). -/
def ducked (conns : List Connection) (p : Port) : Bool :=
  conns.any fun c => c.cls.calls && c.dest == .port p

/-! ### Cue circuits -/

/-- The answer rule is met by the answered marks (R90). -/
def Circuit.answerMet (c : Circuit) : Bool :=
  match c.rule with
  | .all => c.members.all Member.answered
  | .any => c.members.any Member.answered

/-- What a GO gives in the circuit's present state (R92, R93). -/
def Circuit.goCheck (c : Circuit) : Status :=
  match c.state with
  | .ready => .done
  | .standby | .late => if c.goUnanswered then .done else .unanswered
  | .idle => .notInStandby
  | .go => .already

/-- The value a circuit gives to a crew lamp it has as a member: 0 OFF, 1 STANDBY, 2 READY, 3 GO (R102,
12.2). -/
def CircuitState.crewLamp : CircuitState → Nat
  | .idle => 0
  | .standby | .late => 1
  | .ready => 2
  | .go => 3

/-- The circuit has the lamp as a member. -/
def Circuit.hasMember (c : Circuit) (p : Port) (l : CrewLamp) : Bool :=
  c.members.any fun m => m.port == p && m.lamp == l

/-- The crew lamp `(p, l)`: the highest value by the precedence GO, STANDBY, READY, OFF (R102). -/
def State.crewLamp (s : State) (p : Port) (l : CrewLamp) : Nat :=
  let values := (s.circuits.toList.filter fun c => c.hasMember p l).map fun c => c.state.crewLamp
  if values.contains 3 then 3 else if values.contains 1 then 1 else if values.contains 2 then 2 else 0

/-- The desk lamp of a circuit: OFF 0, STANDBY 1, READY 2, LATE 3, GO 4 (R103, 12.2). -/
def State.deskLamp (s : State) (c : CircuitIx) : Nat := s.circuits[c].state.code

/-- The call lamp of a port: FLASH (4) while its call count is above 0, otherwise the lamp of its CALL
key (R139). -/
def State.callLamp (s : State) (p : Port) : Nat :=
  if s.walker.calls[p] > 0 then 4 else (s.walker.keys[p])[(4 : Key)].lamp.code

/-! ### The management engine -/

/-- The credit: free command queue entries, the command at the head counting as held (R158). -/
def Management.credit (m : Management) : Nat := Config.commandCapacity - m.commands.length

/-- Reply entries held or reserved (R160): the entry of a command in execution is reserved. -/
def Management.repliesTaken (m : Management) : Nat :=
  m.replies.length + if m.execution = .none then 0 else 1

/-- The reply queue has an entry that is neither held nor reserved (R159, R160, R170). -/
def Management.replyRoom (m : Management) : Bool := m.repliesTaken < Config.replyCapacity

/-- The records of the open load that wait to be written. -/
def Execution.waitingRecords : Execution → List Record
  | .load l => l.waiting
  | .none | .access _ | .softReset _ => []

/-- An access of the management engine waits for the table port: a command's, or the oldest waiting
record of a load (R162). -/
def Management.accessWaiting (m : Management) : Bool :=
  match m.execution with
  | .access _ => true
  | .load l => !l.waiting.isEmpty
  | .none | .softReset _ => false

/-! ### The walker -/

/-- The walk in flight. -/
def Job.walk? : Job → Option Walk
  | .walking w _ => some w
  | .idle | .waiting .. => none

/-- A walk waits for the table port. -/
def Job.isWaiting : Job → Bool
  | .waiting .. => true
  | .idle | .walking .. => false

/-- The walk is making its hits good and has still some to make good. -/
def WalkPhase.hitsLeft : WalkPhase → Bool
  | .making (_ :: _) _ => true
  | .making [] _ | .read => false

/-- The walk has decided to act and has not set its outcome. -/
def WalkPhase.isMaking : WalkPhase → Bool
  | .making _ _ => true
  | .read => false

/-- The tag is of a key of port `p`. -/
def Tag.ofPort (t : Tag) (p : Port) : Bool :=
  match t with
  | .key q _ => p == q
  | .cue _ => false

end Sys2Proof.Machine
end

