-- ==== Sys2Proof/Machine/Ops.lean ====
section
/-!
DEFINITION. The operations that blocks share: reading and writing one port, key entry or circuit,
handing a request to another block and taking it, offering a notice, posting a CUE_OPEN, placing a
reply, and the table port's grants. The 2416 takes no exception and has none to return from: raising a
fault is handing a report to the fault log (`State.report`).
-/

namespace Sys2Proof.Machine

/-! ### Single entries of the tables -/

/-- Replace station port `p`. -/
def State.setPort (s : State) (p : Port) (x : StationPort) : State := s.setPorts (put s.ports p x)

/-- Station port `p` is UP. -/
def State.isUp (s : State) (p : Port) : Bool := s.ports[p].link == .up

/-- The key entry `(p, k)` (R63). -/
def Walker.entry (w : Walker) (p : Port) (k : Key) : KeyEntry := (w.keys[p])[k]

/-- Replace the key entry `(p, k)`. -/
def Walker.setEntry (w : Walker) (p : Port) (k : Key) (e : KeyEntry) : Walker :=
  { w with keys := put w.keys p (put w.keys[p] k e) }

/-- The key entry `(p, k)` of a state. -/
def State.entry (s : State) (p : Port) (k : Key) : KeyEntry := s.walker.entry p k

/-- Replace the key entry `(p, k)` of a state. -/
def State.setEntry (s : State) (p : Port) (k : Key) (e : KeyEntry) : State :=
  s.setWalker (s.walker.setEntry p k e)

/-- Set what the walker has in hand. -/
def State.setJob (s : State) (j : Job) : State := s.setWalker { s.walker with job := j }

/-- A port drops, or a circuit enters IDLE: a walk in flight for one of these tags whose reading has not ended will be
suppressed at its end (R71, R80, R96, R131). A walk that has decided to act goes on. -/
def State.suppress (these : Tag → Bool) (s : State) : State :=
  match s.walker.job with
  | .walking w rest =>
    if w.phase = .read ∧ these w.tag then s.setJob (.walking { w with suppressed := true } rest) else s
  | .idle | .waiting _ _ _ => s

/-- Replace circuit `c`. -/
def State.setCircuit (s : State) (c : CircuitIx) (x : Circuit) : State :=
  s.setCircuits (put s.circuits c x)

/-- The show clock. -/
def State.clock (s : State) : Stamp := s.trunk.clock

/-- Mark a deadline that the show clock has reached (R148: it is reached when the clock equals it). -/
def Deadline.tick (clock : Stamp) (d : Deadline) : Deadline :=
  { d with reached := d.reached || d.due == clock }

/-- A deadline a number of frames ahead of the show clock, reckoned modulo 2^32 (R148). -/
def Deadline.after (clock : Stamp) (frames : Nat) : Deadline := ⟨clock + BitVec.ofNat 32 frames, false⟩

/-! ### Requests between blocks -/

/-- Hand a request to another block. -/
def State.hand (s : State) (r : Request) : State := s.setRequests (s.requests ++ [r])

/-- A block takes a request that was handed to it; where none was, nothing happens. -/
def State.take (s : State) (r : Request) (effect : State → State) : State :=
  if r ∈ s.requests then effect (s.setRequests (s.requests.erase r)) else s

/-- Report a fault to the fault log (R181). -/
def State.report (s : State) (kind : FaultKind) (loc : Location) : State := s.hand (.fault kind loc)

/-- Report several faults, in order. -/
def State.reportAll (s : State) (faults : List (FaultKind × Location)) : State :=
  faults.foldl (fun s f => s.report f.1 f.2) s

/-! ### Notices and events -/

/-- Offer a notice (R164): it takes the sequence number, and joins the notice queue below 16 notices or
is discarded with NOTICE_OVERRUN reported. -/
def State.offer (s : State) (body : NoticeBody) : State :=
  let m := s.management
  if m.notices.length < Config.noticeCapacity then
    s.setManagement { m with notices := m.notices ++ [⟨m.seq, body⟩], seq := m.seq + 1 }
  else (s.setManagement { m with seq := m.seq + 1 }).report .noticeOverrun .nowhere

/-- Append an event to the key event queue. -/
def State.enqueue (s : State) (e : KeyEvent) : State :=
  s.setWalker { s.walker with queue := s.walker.queue ++ [e] }

/-- Post CUE_OPEN(c) (R61, R99): admitted below 32 events, otherwise refused with QUEUE_FULL. -/
def State.postCueOpen (s : State) (c : CircuitIx) : State :=
  if s.walker.queue.length < Config.keyQueueCapacity then s.enqueue (.cueOpen c)
  else s.report .queueFull (.circuit c)

/-! ### The command in execution -/

/-- What a command answers: status, CLAMPED mark and parameters (R161). -/
structure Answer where
  status : Status
  clamped : Bool
  params : List Byte
  deriving DecidableEq, Repr

/-- An answer that carries 0 in every parameter byte (12.5). -/
def Answer.bare (status : Status) : Answer := ⟨status, false, []⟩

/-- DONE with parameters and without CLAMPED. -/
def Answer.ok (params : List Byte) : Answer := ⟨.done, false, params⟩

/-- Place the reply of the command at the head, which then leaves the command queue (R160, R163). -/
def State.answer (s : State) (a : Answer) : State :=
  match s.management.commands with
  | [] => s
  | c :: rest =>
    s.setManagement { s.management with
      commands := rest
      replies := s.management.replies ++ [⟨c.tag, a.status, a.clamped, parameters a.params⟩]
      execution := .none }

/-- Set what the command at the head is doing; its reply entry is then reserved (R160). -/
def State.execute (s : State) (e : Execution) : State :=
  s.setManagement { s.management with execution := e }

/-- Place a reply that no command in execution reserved, when there is room for it: FULL at admission
(R159), NO_LOAD (R170). -/
def State.reply (s : State) (r : Reply) : State :=
  if s.management.replyRoom then
    s.setManagement { s.management with replies := s.management.replies ++ [r] }
  else s

/-- The commands a show lock state refuses (R177). -/
def LockState.refuses (l : LockState) (code : Byte) : Bool :=
  let setUp := [0x31, 0x30, 0x46, 0x47, 0x40, 0x10, 0x12, 0x20, 0x21]
  let frozenToo := [0x33, 0x22, 0x23, 0x02, 0x60, 0x61]
  match l with
  | .unlocked => false
  | .locked => setUp.contains code.toNat
  | .frozen => setUp.contains code.toNat || frozenToo.contains code.toNat

/-- The codes of the command catalogue (12.6). -/
def catalogue : List Nat :=
  [0x01, 0x02, 0x10, 0x11, 0x12, 0x20, 0x21, 0x22, 0x23, 0x24, 0x25, 0x30, 0x31, 0x32, 0x33, 0x34, 0x40,
   0x41, 0x42, 0x43, 0x44, 0x45, 0x46, 0x47, 0x48, 0x49, 0x4A, 0x50, 0x51, 0x60, 0x61, 0x62]

/-- The command at the head may begin: RAM initialisation has ended, no command is in execution (so no
load is open) and a reply entry is free (R160). -/
def State.mayBegin (s : State) : Bool :=
  !s.directory.initialising && s.management.execution == .none && s.management.replyRoom

/-- Begin the command at the head where it has the given code (R160, R161): answered LOCKED where the
show lock refuses it, otherwise carried out by `effect` with its parameter bytes. Where no such command
may begin, nothing happens. -/
def State.begin (s : State) (code : Nat) (effect : List Byte → State → State) : State :=
  match s.management.commands with
  | [] => s
  | c :: _ =>
    if s.mayBegin ∧ c.code.toNat = code then
      if s.management.lock.refuses c.code then s.answer (.bare .locked) else effect c.params s
    else s

/-- A command that reads and changes nothing: its answer is computed from the state (R161). -/
def State.beginRead (s : State) (code : Nat) (read : List Byte → State → Answer) : State :=
  s.begin code fun ps s => s.answer (read ps s)

/-- A request of a soft reset in progress (R174). -/
def Request.ofReset : Request → Bool
  | .removeKeysAndCues | .walkerReset | .circuitAbort | .portResync _ => true
  | .removePortKeys _ | .portRowReset _ | .removeCircuit _ | .busyLamp _ _ | .lostMark _ _
  | .answer _ _ | .desk _ _ _ _ | .fault _ _ => false

/-- A block has taken its request of the soft reset: when it was the last, the SOFT RESET in execution
is answered DONE with the number of commands discarded (R160, R174). -/
def State.resetTaken (s : State) : State :=
  match s.management.execution with
  | .softReset n => if s.requests.any Request.ofReset then s else s.answer (.ok [byte n])
  | .none | .load _ | .access _ => s

/-! ### The table port (R52 to R54) -/

/-- The table port is free: initialisation has ended and no walk is in flight (R52). -/
def State.portFree (s : State) : Bool := !s.directory.initialising && s.walker.job.walk?.isNone

/-- An access of the management engine may be granted the port now (R52). -/
def State.accessGranted (s : State) : Bool :=
  s.portFree && !(s.directory.turn == .walker && s.walker.job.isWaiting)

/-- The waiting walk may be granted the port now (R52). -/
def State.walkGranted (s : State) : Bool :=
  s.portFree && s.walker.job.isWaiting
    && !(s.directory.turn == .management && s.management.accessWaiting)

/-- An access of the management engine has ended: a waiting walk is granted the port before any further
access (R52). -/
def State.accessEnded (s : State) : State :=
  s.setDirectory { s.directory with turn := if s.walker.job.isWaiting then .walker else .either }

/-- A walk has ended: a waiting access is granted the port before the next walk (R52). -/
def State.walkReleased (s : State) : State :=
  s.setDirectory { s.directory with
    turn := if s.management.accessWaiting then .management else .either }

end Sys2Proof.Machine
end

