-- ==== Sys2Proof/Machine/Cue.lean ====
section
/-!
DEFINITION. The cue engine (chapter 5): the requests STANDBY, GO and CANCEL, answers, the two timers,
lost marks, the soft reset of circuits, and the commands that set up and read circuits.
-/

namespace Sys2Proof.Machine

/-! ### One circuit -/

/-- Entry to STANDBY (R87); the lost marks are kept. -/
def Circuit.enterStandby (c : Circuit) (cue : Option CueNumber) (clock : Stamp) : Circuit :=
  { c with
    state := .standby
    members := c.members.map fun m => { m with answered := false }
    late := false
    cue := cue
    standbyDeadline :=
      if c.timeout = 0 then none else some (.after clock (c.timeout * Config.framesPerSecond))
    holdDeadline := none }

/-- Entry to IDLE (R96); the lost marks are kept. -/
def Circuit.enterIdle (c : Circuit) : Circuit :=
  { c with
    state := .idle
    members := c.members.map fun m => { m with answered := false }
    late := false
    cue := none
    standbyDeadline := none
    holdDeadline := none
    pending := false
    pendingCue := none }

/-- Put an outcome at the front of the history, which keeps eight (R104). -/
def Circuit.record (c : Circuit) (kind : OutcomeKind) (clock : Stamp) : Circuit :=
  { c with history := (⟨kind, c.cue, clock⟩ :: c.history).take Config.historyCapacity }

/-- The outcome of a GO accepted in the circuit's state (R92). -/
def Circuit.goOutcome (c : Circuit) : OutcomeKind :=
  if c.state = .ready then (if c.late then .lateAnswered else .answered) else .unanswered

/-- An accepted GO (R92): a cue number it carries replaces the circuit's, and then the outcome is
recorded. -/
def Circuit.enterGo (c : Circuit) (cue : Option CueNumber) (clock : Stamp) : Circuit :=
  let c' := { c with cue := cue <|> c.cue }
  { c'.record c.goOutcome clock with
    state := .go
    standbyDeadline := none
    holdDeadline := some (.after clock (c.hold * Config.framesPerTenth))
    pending := false
    pendingCue := none }

/-- The circuit has the lamp as a member that is not lost: a lost member cannot answer (R84). -/
def Circuit.canAnswer (c : Circuit) (p : Port) (l : CrewLamp) : Bool :=
  c.members.any fun m => m.port == p && m.lamp == l && !m.lost

/-- An answer of `(p, l)` (R89, R90). -/
def Circuit.answered (c : Circuit) (p : Port) (l : CrewLamp) : Circuit :=
  if (c.state = .standby ∨ c.state = .late) ∧ c.canAnswer p l then
    let c' : Circuit := { c with
      members := c.members.map fun m =>
        if m.port = p ∧ m.lamp = l ∧ m.lost = false then { m with answered := true } else m }
    if c'.answerMet then
      { c' with state := .ready, late := decide (c.state = .late), standbyDeadline := none }
    else c'
  else c

/-- Set or clear the lost marks of the members on port `p` (R84). -/
def Circuit.markLost (c : Circuit) (p : Port) (lost : Bool) : Circuit :=
  { c with members := c.members.map fun m => if m.port = p then { m with lost := lost } else m }

/-! ### CUE_EVENT notices (R98) -/

/-- Offer the CUE_EVENT of circuit `c` in its present state, with the cue number given. -/
def State.offerCueEvent (c : CircuitIx) (cue : Option CueNumber) (s : State) : State :=
  s.offer (.cueEvent c s.circuits[c].state cue s.circuits[c].late s.clock)

/-- Offer, in circuit order, one CUE_EVENT for each circuit whose state differs from `before`. -/
def State.offerChanges (before : Vector Circuit 24) (s : State) : State :=
  (List.finRange 24).foldl (fun s c =>
    if before[c].state = s.circuits[c].state then s else s.offerCueEvent c s.circuits[c].cue) s

/-! ### Requests (5.3) -/

/-- STANDBY(c) without its notice (R88, R99). -/
def State.standbyQuiet (c : CircuitIx) (cue : Option CueNumber) (s : State) : State × Status :=
  let x := s.circuits[c]
  match x.state with
  | .idle =>
    if x.members.isEmpty then (s, .emptyCircuit)
    else ((s.setCircuit c (x.enterStandby cue s.clock)).postCueOpen c, .done)
  | .standby | .ready | .late => (s, .done)
  | .go => (s.setCircuit c { x with pending := true, pendingCue := cue }, .done)

/-- STANDBY(c) (R88), with its notice (R98). -/
def State.standby (c : CircuitIx) (cue : Option CueNumber) (s : State) : State × Status :=
  let r := s.standbyQuiet c cue
  (r.1.offerChanges s.circuits, r.2)

/-- GO(c) without its notice (R92). -/
def State.goQuiet (c : CircuitIx) (cue : Option CueNumber) (s : State) : State × Status :=
  let x := s.circuits[c]
  if x.goCheck = .done then (s.setCircuit c (x.enterGo cue s.clock), .done) else (s, x.goCheck)

/-- GO(c) (R92), with its notice (R98). -/
def State.go (c : CircuitIx) (cue : Option CueNumber) (s : State) : State × Status :=
  let r := s.goQuiet c cue
  (r.1.offerChanges s.circuits, r.2)

/-- Circuit `c`, whose record is `x`, enters IDLE for a cause other than soft reset (R96): CUE_EVENT with
the cue number held just before, and the remove circuit request; a walk of the circuit in flight that has not
decided is to be suppressed (R71, R96). At soft reset the walker has abandoned its walk (R82). -/
def State.toIdle (c : CircuitIx) (x : Circuit) (s : State) : State :=
  (((s.setCircuit c x.enterIdle).offerCueEvent c x.cue).hand (.removeCircuit c)).suppress (· == .cue c)

/-- CANCEL(c) (R94). -/
def State.cancel (c : CircuitIx) (s : State) : State × Status :=
  let x := s.circuits[c]
  match x.state with
  | .standby | .ready | .late => (s.toIdle c (x.record .cancelled s.clock), .done)
  | .go => (s.toIdle c x, .done)
  | .idle => (s, .done)

/-! ### Desk requests -/

/-- The oldest request of the desk on port `p` that no block has taken (R123: as they arrive), with its
sequence number and whether its result is still wanted. -/
def State.firstDesk (s : State) (p : Port) : Option (Byte × Bool × DeskRequest) :=
  s.requests.findSome? fun
    | .desk q seq wanted r => if q = p then some (seq, wanted, r) else none
    | _ => none

/-- A result reaches the desk on port `p` (R137): it joins the reply buffer of a port that is UP and holds
fewer than two replies, and is discarded otherwise. -/
def State.deskReply (s : State) (p : Port) (seq : Byte) (status : Status) : State :=
  let x := s.ports[p]
  if x.link = .up ∧ x.replies.length < Config.deskReplyCapacity then
    s.setPort p { x with replies := x.replies ++ [withSumCheck [0x80, seq, byte status.code]] }
  else s

/-- A block takes the oldest request of the desk on port `p` where it is `r`, and the result returns to
the desk (R123, R137), or is discarded where the port has dropped since the request was handed on (R130). -/
def State.takeDesk (p : Port) (r : DeskRequest) (effect : State → State × Status) (s : State) : State :=
  match s.firstDesk p with
  | some (seq, wanted, r') =>
    if r' = r then
      let out := effect (s.setRequests (s.requests.erase (.desk p seq wanted r)))
      if wanted then out.1.deskReply p seq out.2 else out.1
    else s
  | none => s

/-- STANDBY_REQUEST (R88, R123): STANDBY(c) with cue number NONE. -/
def execStandbyRequest (p : Port) (c : CircuitIx) (s : State) : Host.Outcome State Fault Refusal :=
  .next (s.takeDesk p (.standby c) (State.standby c none))

/-- GO_REQUEST (R92, R123): GO(c) with cue number NONE. -/
def execGoRequest (p : Port) (c : CircuitIx) (s : State) : Host.Outcome State Fault Refusal :=
  .next (s.takeDesk p (.go c) (State.go c none))

/-- CANCEL_REQUEST (R94, R123). -/
def execCancelRequest (p : Port) (c : CircuitIx) (s : State) : Host.Outcome State Fault Refusal :=
  .next (s.takeDesk p (.cancel c) (State.cancel c))

/-! ### Answers, timers, lost marks and the soft reset -/

/-- An answer of `(p, l)` is in transit, and no lost mark of its port was sent before it: an answer does not
overtake its port's news (R84, R106). -/
def answerDue (p : Port) (l : CrewLamp) : List Request → Bool
  | [] => false
  | .lostMark q _ :: rest => q != p && answerDue p l rest
  | r :: rest => r == .answer p l || answerDue p l rest

/-- ANSWER (R89): taken for every circuit at once, with one CUE_EVENT for each that becomes READY. -/
def execAnswer (p : Port) (l : CrewLamp) (s : State) : Host.Outcome State Fault Refusal :=
  .next <|
    if answerDue p l s.requests then
      s.take (.answer p l) fun s =>
        (s.setCircuits (each s.circuits fun _ x => x.answered p l)).offerChanges s.circuits
    else s

/-- A deadline is held and the show clock has reached it. -/
def deadlineReached (d : Option Deadline) : Bool := d.any Deadline.reached

/-- STANDBY_TIMER_EXPIRY (R91): a circuit in STANDBY whose deadline is reached becomes LATE. -/
def execStandbyTimerExpiry (c : CircuitIx) (s : State) : Host.Outcome State Fault Refusal :=
  .next <|
    let x := s.circuits[c]
    if x.state = .standby ∧ deadlineReached x.standbyDeadline then
      (s.setCircuit c { x with state := .late, standbyDeadline := none }).offerCueEvent c x.cue
    else s

/-- GO_HOLD_EXPIRY (R95): a circuit in GO whose hold deadline is reached enters STANDBY where one is
pending, posting no CUE_OPEN, and IDLE otherwise. -/
def execGoHoldExpiry (c : CircuitIx) (s : State) : Host.Outcome State Fault Refusal :=
  .next <|
    let x := s.circuits[c]
    if x.state = .go ∧ deadlineReached x.holdDeadline then
      if x.pending then
        (s.setCircuit c (({ x with pending := false, pendingCue := none } : Circuit).enterStandby
          x.pendingCue s.clock)).offerCueEvent c x.pendingCue
      else s.toIdle c x
    else s

/-- The oldest lost mark request of port `p`: whether it sets or clears. A port's requests reach the cue
engine in the order it sent them. -/
def State.firstLostMark (s : State) (p : Port) : Option Bool :=
  s.requests.findSome? fun
    | .lostMark q lost => if q = p then some lost else none
    | _ => none

/-- The request is an answer of port `p`. -/
def Request.answers (p : Port) : Request → Bool
  | .answer q _ => q == p
  | _ => false

/-- The requests without the answers of port `p` that stand before its first lost mark: where the drop is
taken first, those presses are not handed over (R106). -/
def dropAnswers (p : Port) : List Request → List Request
  | [] => []
  | .lostMark q lost :: rest =>
    .lostMark q lost :: if q = p then rest else dropAnswers p rest
  | r :: rest => if r.answers p then dropAnswers p rest else r :: dropAnswers p rest

/-- The cue engine takes a lost mark request of port `p` (R84). -/
def State.takeLostMark (p : Port) (lost : Bool) (s : State) : State :=
  if s.firstLostMark p = some lost then
    s.take (.lostMark p lost) fun s => s.setCircuits (each s.circuits fun _ x => x.markLost p lost)
  else s

/-- LOST_MARK_SET (R84): every member whose port went DOWN is marked lost. The port's answers that were sent
before and have not been taken are not handed over (R106). -/
def execLostMarkSet (p : Port) (s : State) : Host.Outcome State Fault Refusal :=
  .next <|
    if s.firstLostMark p = some true then
      (s.setRequests (dropAnswers p s.requests)).takeLostMark p true
    else s

/-- LOST_MARK_CLEAR (R84): the lost marks of every member whose port came UP are cleared. -/
def execLostMarkClear (p : Port) (s : State) : Host.Outcome State Fault Refusal :=
  .next (s.takeLostMark p false)

/-- Circuit `c` is aborted (R107): an outcome ABORTED, IDLE, and its CUE_EVENT; an IDLE circuit is not
changed. No remove circuit request is sent. -/
def State.abortCircuit (s : State) (c : CircuitIx) : State :=
  let x := s.circuits[c]
  if x.state = .idle then s
  else (s.setCircuit c (x.record .aborted s.clock).enterIdle).offerCueEvent c x.cue

/-- CIRCUIT_ABORT (R107): at soft reset every circuit not IDLE enters IDLE, in circuit order. -/
def execCircuitAbort (s : State) : Host.Outcome State Fault Refusal :=
  .next <| s.take .circuitAbort fun s => ((List.finRange 24).foldl State.abortCircuit s).resetTaken

/-! ### Commands -/

/-- The circuit a parameter byte names. -/
def circuitParam (ps : List Byte) : Option CircuitIx := index? 24 (byteAt ps 0).toNat

/-- A member byte of CIRCUIT SETUP (12.6): `none` where its lamp is no lamp; `some none` where no member
is present. -/
def memberDecode (b : Byte) : Option (Option (Port × CrewLamp)) :=
  if b.getLsbD 7 then
    match (b.extractLsb' 4 2).toNat, index? 16 (b.extractLsb' 0 4).toNat with
    | 0, some p => some (some (p, .a))
    | 1, some p => some (some (p, .b))
    | _, _ => none
  else some none

/-- The members in P1 to P4, in order where present; `none` where a member is malformed or a pair
appears twice (R85). -/
def membersDecode (ps : List Byte) : Option (List (Port × CrewLamp)) :=
  match memberDecode (byteAt ps 1), memberDecode (byteAt ps 2), memberDecode (byteAt ps 3),
      memberDecode (byteAt ps 4) with
  | some a, some b, some c, some d =>
    let ms := a.toList ++ b.toList ++ c.toList ++ d.toList
    if ms.Nodup then some ms else none
  | _, _, _, _ => none

/-- CIRCUIT_SETUP (R85). -/
def circuitSetup (ps : List Byte) (s : State) : State :=
  let hold := (byteAt ps 7).toNat
  match circuitParam ps, membersDecode ps, AnswerRule.decode (byteAt ps 5).toNat,
      flagDecode (byteAt ps 8).toNat with
  | some c, some members, some rule, some goUnanswered =>
    let x := s.circuits[c]
    if x.state = .idle then
      (s.setCircuit c { x with
        members := members.map fun m => ⟨m.1, m.2, false, !s.isUp m.1⟩
        rule := rule
        timeout := (byteAt ps 6).toNat
        hold := max 1 hold
        goUnanswered := goUnanswered }).answer ⟨.done, decide (hold = 0), []⟩
    else s.answer (.bare .circuitBusy)
  | _, _, _, _ => s.answer (.bare .badParam)

/-- CIRCUIT_SETUP (R85): replaces the whole setup of an IDLE circuit. -/
def execCircuitSetup (s : State) : Host.Outcome State Fault Refusal := .next (s.begin 0x40 circuitSetup)

/-- A member in one byte, as in CIRCUIT SETUP (12.5). -/
def Member.byte (m : Member) : Byte :=
  Machine.byte (128 + (match m.lamp with | .a => 0 | .b => 16) + m.port.val)

/-- The marks of a member list as bits, the first member's lowest. -/
def markBits (f : Member → Bool) : List Member → Nat
  | [] => 0
  | m :: rest => bit (f m) + 2 * markBits f rest

/-- The setup of a circuit (R105 part 0). A place with no member is sent as a byte of 0: 12.5 says of it only that
bit 7 is clear (DESIGN CHOICE, unsafe, log 13). -/
def Circuit.setupBytes (c : Circuit) : List Byte :=
  (c.members.map Member.byte ++ List.replicate 4 0).take 4
    ++ [byte c.rule.code, byte c.timeout, byte c.hold, byte (bit c.goUnanswered)]

/-- The run state of a circuit (R105 part 1). -/
def Circuit.runBytes (c : Circuit) : List Byte :=
  [byte (c.state.code + 8 * bit c.late + 16 * bit c.pending)] ++ cueBytes c.cue
    ++ [byte (markBits Member.answered c.members + 16 * markBits Member.lost c.members)]
    ++ cueBytes c.pendingCue

/-- An outcome record, or none (12.5). -/
def outcomeBytes : Option Outcome → List Byte
  | some o => [byte o.kind.code] ++ cueBytes o.cue ++ stampBytes (some o.stamp)
  | none => [0] ++ cueBytes none ++ stampBytes none

/-- The frames left to a deadline, reckoned modulo 2^32, or none (R105, R148). -/
def framesLeft (clock : Stamp) (d : Option Deadline) : List Byte :=
  stampBytes (d.map fun d => d.due - clock)

/-- READ_CIRCUIT (R105). -/
def readCircuit (ps : List Byte) (s : State) : Answer :=
  let part := (byteAt ps 1).toNat
  match circuitParam ps with
  | none => .bare .badParam
  | some c =>
    let x := s.circuits[c]
    if part = 0 then .ok x.setupBytes
    else if part = 1 then .ok x.runBytes
    else if part ≤ 9 then .ok (outcomeBytes x.history[part - 2]?)
    else if part = 10 then
      .ok (framesLeft s.clock x.standbyDeadline ++ framesLeft s.clock x.holdDeadline)
    else .bare .badParam

/-- READ_CIRCUIT (R105): returns one part of a circuit's record. -/
def execReadCircuit (s : State) : Host.Outcome State Fault Refusal := .next (s.beginRead 0x41 readCircuit)

/-- A cue command on the circuit its parameter names (R86, R124). -/
def cueCommand (f : CircuitIx → State → State × Status) (ps : List Byte) (s : State) : State :=
  match circuitParam ps with
  | none => s.answer (.bare .badParam)
  | some c => (f c s).1.answer (.bare (f c s).2)

/-- CUE_STANDBY (R124): STANDBY(c) with cue number NONE. -/
def execCueStandby (s : State) : Host.Outcome State Fault Refusal :=
  .next (s.begin 0x42 (cueCommand fun c => State.standby c none))

/-- CUE_GO (R124): GO(c) with cue number NONE. -/
def execCueGo (s : State) : Host.Outcome State Fault Refusal :=
  .next (s.begin 0x43 (cueCommand fun c => State.go c none))

/-- CUE_CANCEL (R124): CANCEL(c). -/
def execCueCancel (s : State) : Host.Outcome State Fault Refusal :=
  .next (s.begin 0x44 (cueCommand State.cancel))

end Sys2Proof.Machine
end

