-- ==== Sys2Proof/Machine/CueList.lean ====
section
/-!
DEFINITION. The cue list (chapter 6): GO NEXT, STANDBY NEXT, BACK and SKIP from desks and from the show
controller, the list commands, and the last-cue records.
-/

namespace Sys2Proof.Machine

/-- The circuits of an entry, in circuit order (R114). -/
def CueEntry.circuitList (e : CueEntry) : List CircuitIx :=
  (List.finRange 24).filter fun c => e.circuits.getLsbD c.val

/-- The entry at the cursor; there is none where the cursor stands at the length (R109). -/
def CueList.atCursor (l : CueList) : Option CueEntry := l.entries[l.cursor]?

/-- The result of a list request, with what the reply of CUE NEXT carries of it (R124). -/
structure ListResult where
  status : Status
  refusing : Option CircuitIx
  cue : Option CueNumber
  refused : BitVec 24
  gone : Nat
  deriving DecidableEq, Repr

/-- A result that carries its status alone. -/
def ListResult.bare (status : Status) : ListResult := ⟨status, none, none, 0, 0⟩

/-- Give STANDBY with a cue number to each circuit of a list, in order (R116, R117), gathering the set of
circuits that refused. -/
def State.standbyAll (cue : CueNumber) : List CircuitIx → State → State × BitVec 24
  | [], s => (s, 0)
  | c :: rest, s =>
    let r := s.standbyQuiet c (some cue)
    let t := State.standbyAll cue rest r.1
    (t.1, if r.2 = .done then t.2 else t.2 ||| BitVec.twoPow 24 c.val)

/-- Give GO with a cue number to each circuit of a list, in order (R115 step 1). -/
def State.goAll (cue : CueNumber) (cs : List CircuitIx) (s : State) : State :=
  cs.foldl (fun s c => (s.goQuiet c (some cue)).1) s

/-- The lowest-numbered circuit whose GO check refuses, with the reason (R114). -/
def State.goRefusal (cs : List CircuitIx) (s : State) : Option (CircuitIx × Status) :=
  (cs.find? fun c => s.circuits[c].goCheck ≠ .done).map fun c => (c, s.circuits[c].goCheck)

/-- The last-cue record of an entry gone now (R120). -/
def CueEntry.lastCue (e : CueEntry) (clock : Stamp) : LastCue :=
  ⟨e.cue, (e.circuitList.head?).getD 0, e.circuitList.length, clock⟩

/-- Auto-standby (R116): where the cursor names an entry with auto-standby, its circuits receive STANDBY. -/
def State.autoStandby (s : State) : State × BitVec 24 :=
  match s.cueList.atCursor with
  | some e => if e.auto then s.standbyAll e.cue e.circuitList else (s, 0)
  | none => (s, 0)

/-- GO NEXT (R114, R115). -/
def State.goNext (s : State) : State × ListResult :=
  match s.cueList.atCursor with
  | none => (s, .bare .listEnd)
  | some e =>
    match s.goRefusal e.circuitList with
    | some (c, why) => (s, ⟨why, some c, none, 0, 0⟩)
    | none =>
      let s1 := s.goAll e.cue e.circuitList
      let s2 := s1.setCueList { s1.cueList with
        lastCue := some (e.lastCue s.clock), cursor := s1.cueList.cursor + 1 }
      let r := s2.autoStandby
      (r.1.offerChanges s.circuits, ⟨.done, none, some e.cue, r.2, e.circuitList.length⟩)

/-- STANDBY NEXT (R117). -/
def State.standbyNext (s : State) : State × ListResult :=
  match s.cueList.atCursor with
  | none => (s, .bare .listEnd)
  | some e =>
    let r := s.standbyAll e.cue e.circuitList
    if e.circuitList.any fun c => !r.2.getLsbD c.val then
      (r.1.offerChanges s.circuits, ⟨.done, none, some e.cue, r.2, 0⟩)
    else (r.1.offerChanges s.circuits, ⟨.emptyCircuit, none, none, r.2, 0⟩)

/-- BACK (R118). -/
def State.back (s : State) : State × ListResult :=
  if s.cueList.cursor = 0 then (s, .bare .listStart)
  else (s.setCueList { s.cueList with cursor := s.cueList.cursor - 1 }, .bare .done)

/-- SKIP (R118). -/
def State.skip (s : State) : State × ListResult :=
  if s.cueList.entries.length ≤ s.cueList.cursor then (s, .bare .listEnd)
  else (s.setCueList { s.cueList with cursor := s.cueList.cursor + 1 }, .bare .done)

/-- A list request as a desk sees it: the result alone (R123). -/
def deskView (f : State → State × ListResult) (s : State) : State × Status := ((f s).1, (f s).2.status)

/-- GO_NEXT (R115): the cue list takes GO NEXT of the desk on port `p`. -/
def execGoNext (p : Port) (s : State) : Host.Outcome State Fault Refusal :=
  .next (s.takeDesk p .goNext (deskView State.goNext))

/-- STANDBY_NEXT (R117): the cue list takes STANDBY NEXT of the desk on port `p`. -/
def execStandbyNext (p : Port) (s : State) : Host.Outcome State Fault Refusal :=
  .next (s.takeDesk p .standbyNext (deskView State.standbyNext))

/-- BACK (R118) of the desk on port `p`. -/
def execBack (p : Port) (s : State) : Host.Outcome State Fault Refusal :=
  .next (s.takeDesk p .back (deskView State.back))

/-- SKIP (R118) of the desk on port `p`. -/
def execSkip (p : Port) (s : State) : Host.Outcome State Fault Refusal :=
  .next (s.takeDesk p .skip (deskView State.skip))

/-! ### Commands -/

/-- The reply of CUE NEXT, which carries its fields whatever its status (12.5). -/
def ListResult.answer (r : ListResult) (sub : Byte) (l : CueList) : Answer :=
  ⟨r.status, false, [sub, byte l.cursor, byte l.entries.length, circuitByte r.refusing]
    ++ cueBytes r.cue ++ bytesOf24 r.refused ++ [byte r.gone]⟩

/-- The list request of a CUE NEXT sub-request code; any other is refused BAD_PARAM (R124). -/
def listRequest (sub : Nat) : State → State × ListResult :=
  match sub with
  | 4 => State.goNext
  | 5 => State.standbyNext
  | 6 => State.back
  | 7 => State.skip
  | _ => fun s => (s, .bare .badParam)

/-- CUE_NEXT (R124). The reply to an unknown sub-request carries its byte as it was received, where R124 names
"the sub-request executed" and none is (DESIGN CHOICE, log 21). -/
def cueNext (ps : List Byte) (s : State) : State :=
  let r := listRequest (byteAt ps 0).toNat s
  r.1.answer (r.2.answer (byteAt ps 0) r.1.cueList)

/-- CUE_NEXT (R124): hands GO NEXT, STANDBY NEXT, BACK or SKIP to the cue list. -/
def execCueNext (s : State) : Host.Outcome State Fault Refusal := .next (s.begin 0x45 cueNext)

/-- The length and the cursor, as the list commands answer them. -/
def CueList.position (l : CueList) : List Byte := [byte l.entries.length, byte l.cursor]

/-- CUE_LIST_WRITE (R110). -/
def cueListWrite (ps : List Byte) (s : State) : State :=
  let i := (byteAt ps 0).toNat
  let circuits := word24At ps 3
  let l := s.cueList
  match index? 10000 (wordAt ps 1).toNat, flagDecode (byteAt ps 6).toNat with
  | some cue, some auto =>
    if i > l.entries.length ∨ i ≥ Config.cueListCapacity ∨ circuits = 0 then s.answer (.bare .badParam)
    else
      let e : CueEntry := ⟨cue, circuits, auto⟩
      let entries := if i < l.entries.length then l.entries.set i e else l.entries ++ [e]
      let l' := { l with entries := entries }
      (s.setCueList l').answer (.ok l'.position)
  | _, _ => s.answer (.bare .badParam)

/-- CUE_LIST_WRITE (R110): writes or appends one cue list entry. -/
def execCueListWrite (s : State) : Host.Outcome State Fault Refusal := .next (s.begin 0x46 cueListWrite)

/-- CUE_LIST_TRUNCATE (R111). -/
def cueListTruncate (ps : List Byte) (s : State) : State :=
  let n := (byteAt ps 0).toNat
  let l := s.cueList
  if n > l.entries.length then s.answer (.bare .badParam)
  else
    let l' := { l with entries := l.entries.take n, cursor := min l.cursor n }
    (s.setCueList l').answer (.ok l'.position)

/-- CUE_LIST_TRUNCATE (R111): shortens the cue list and clamps the cursor. -/
def execCueListTruncate (s : State) : Host.Outcome State Fault Refusal :=
  .next (s.begin 0x47 cueListTruncate)

/-- CUE_CURSOR (R119). -/
def cueCursor (ps : List Byte) (s : State) : State :=
  let n := (byteAt ps 0).toNat
  let l := s.cueList
  let cursor := min n l.entries.length
  (s.setCueList { l with cursor := cursor }).answer
    ⟨.done, decide (l.entries.length < n), [byte l.cursor, byte cursor]⟩

/-- CUE_CURSOR (R119): sets the cue list cursor, clamped to the length. -/
def execCueCursor (s : State) : Host.Outcome State Fault Refusal := .next (s.begin 0x48 cueCursor)

/-- The entry fields of the READ CUE LIST reply; where there is no entry every field holds none (12.4,
12.5). -/
def entryBytes : Option CueEntry → List Byte
  | some e => cueBytes (some e.cue) ++ bytesOf24 e.circuits ++ [byte (bit e.auto)]
  | none => cueBytes none ++ [noneByte, noneByte, noneByte, noneByte]

/-- READ_CUE_LIST (R112). -/
def readCueList (ps : List Byte) (s : State) : Answer :=
  let i := (byteAt ps 0).toNat
  if i > 127 then .bare .badParam
  else .ok (entryBytes s.cueList.entries[i]? ++ s.cueList.position)

/-- READ_CUE_LIST (R112): returns one entry with the length and the cursor. -/
def execReadCueList (s : State) : Host.Outcome State Fault Refusal := .next (s.beginRead 0x49 readCueList)

/-- A last-cue record in the READ LAST CUE reply, or marked empty by a count of 0 (12.5). -/
def lastCueBytes : Option LastCue → List Byte
  | some r => cueBytes (some r.cue) ++ [byte r.lowest.val, byte r.count] ++ stampBytes (some r.stamp)
  | none => cueBytes none ++ [noneByte, 0] ++ stampBytes none

/-- READ_LAST_CUE (R122). -/
def readLastCue (ps : List Byte) (s : State) : Answer :=
  let l := s.cueList
  let rest := [byte l.cursor, byte l.entries.length]
  match (byteAt ps 0).toNat with
  | 0 => .ok (lastCueBytes l.lastCue ++ rest)
  | 1 => .ok (lastCueBytes l.beforeFault ++ rest)
  | _ => .bare .badParam

/-- READ_LAST_CUE (R122): returns the last-cue or last-cue-before-fault record. -/
def execReadLastCue (s : State) : Host.Outcome State Fault Refusal := .next (s.beginRead 0x4A readLastCue)

end Sys2Proof.Machine
end

