-- ==== Sys2Proof/Machine/FaultLog.lean ====
section
/-!
DEFINITION. The fault log (chapter 10): taking a report, and reading and clearing the log.
-/

namespace Sys2Proof.Machine

/-- The record stands for this kind and location (R181). -/
def FaultRecord.covers (r : FaultRecord) (kind : FaultKind) (loc : Location) : Bool :=
  r.kind == kind && r.loc == loc

/-- Raise a repeat count by one, stopping at 255 (R182). -/
def FaultRecord.again (r : FaultRecord) : FaultRecord :=
  { r with count := min (r.count + 1) Config.repeatTop }

/-- Apply a function to the first record that satisfies a test. -/
def changeFirst (test : FaultRecord → Bool) (f : FaultRecord → FaultRecord) :
    List FaultRecord → List FaultRecord
  | [] => []
  | r :: rest => if test r then f r :: rest else r :: changeFirst test f rest

/-- Set the overflow mark of the newest record (R185). -/
def markNewest : List FaultRecord → List FaultRecord
  | [] => []
  | [r] => [{ r with overflow := true }]
  | r :: rest => r :: markNewest rest

/-- A MINOR record (R184). -/
def FaultRecord.minor (r : FaultRecord) : Bool := !severe r.kind

/-- The oldest MINOR record and the records without it, with the place it stood at (R184). -/
def splitMinor : List FaultRecord → Option (FaultRecord × List FaultRecord × Nat)
  | [] => none
  | r :: rest =>
    if r.minor then some (r, rest, 0)
    else (splitMinor rest).map fun x => (x.1, r :: x.2.1, x.2.2 + 1)

/-- Create a new record at the end of a list of records (R183, R184): the last-cue copy is taken (R121),
and a FAULT notice is offered unless the kind is NOTICE_OVERRUN. -/
def State.newFault (kind : FaultKind) (loc : Location) (overflow : Bool) (log : FaultLog) (s : State) :
    State :=
  let s := s.setFaultLog { log with records := log.records ++ [⟨kind, loc, s.clock, 1, overflow⟩] }
  let s := s.setCueList { s.cueList with beforeFault := s.cueList.lastCue }
  if kind = .noticeOverrun then s else s.offer (.fault kind loc s.clock)

/-- The fault log takes one report (R181 to R185). -/
def State.logFault (kind : FaultKind) (loc : Location) (s : State) : State :=
  let log := s.faultLog
  if log.records.any fun r => r.covers kind loc then
    s.setFaultLog { log with
      records := changeFirst (fun r => r.covers kind loc) FaultRecord.again log.records }
  else if log.records.length < Config.faultCapacity then s.newFault kind loc false log
  else
    match (if severe kind then splitMinor log.records else none) with
    | some (gone, left, place) =>
      s.newFault kind loc gone.overflow
        ⟨left, if place < log.readPos then log.readPos - 1 else log.readPos⟩
    | none => s.setFaultLog { log with records := markNewest log.records }

/-- FAULT_REPORT (R181): the fault log takes one report. -/
def execFaultReport (kind : FaultKind) (loc : Location) (s : State) : Host.Outcome State Fault Refusal :=
  .next (s.take (.fault kind loc) (State.logFault kind loc))

/-- A fault record in the READ FAULTS reply (12.5). -/
def FaultRecord.bytes (r : FaultRecord) : List Byte :=
  [byte (faultCode r.kind), byte (128 * bit (severe r.kind) + bit r.overflow)] ++ locationBytes r.loc
    ++ bytesOf32 r.stamp ++ [byte r.count]

/-- The READ FAULTS fields where there is no record: kind, stamp and repeat count hold none, the location
is of the form none, and no mark is set (12.4, 12.5). -/
def noFaultBytes : List Byte := [noneByte, 0] ++ locationBytes .nowhere ++ stampBytes none ++ [noneByte]

/-- READ_FAULTS (R188). -/
def readFaults (_ps : List Byte) (s : State) : State :=
  let log := s.faultLog
  match log.records[log.readPos]? with
  | some r =>
    (s.setFaultLog { log with readPos := log.readPos + 1 }).answer
      (.ok (byte (16 * log.readPos + log.records.length) :: r.bytes))
  | none =>
    (s.setFaultLog { log with readPos := 0 }).answer
      (.ok (byte (16 * 15 + log.records.length) :: noFaultBytes))

/-- READ_FAULTS (R188): returns the record at the read position and moves the position on. -/
def execReadFaults (s : State) : Host.Outcome State Fault Refusal := .next (s.begin 0x50 readFaults)

/-- CLEAR_FAULTS (R189). -/
def clearFaults (_ps : List Byte) (s : State) : State :=
  let records := s.faultLog.records
  (s.setFaultLog ⟨[], 0⟩).answer
    (.ok [byte records.length, byte (bit (records.any FaultRecord.overflow))])

/-- CLEAR_FAULTS (R189): empties the fault log and resets the read position. -/
def execClearFaults (s : State) : Host.Outcome State Fault Refusal := .next (s.begin 0x51 clearFaults)

end Sys2Proof.Machine
end

