-- ==== Sys2Proof/Machine/Crosspoint.lean ====
section
/-!
DEFINITION. The crosspoint set (chapter 1): install, merge, eviction, removal by owner, and the
commands and requests that change or read its slots.
-/

namespace Sys2Proof.Machine

/-! ### Slots and owners -/

/-- Replace one slot. -/
def CrosspointSet.setSlot (x : CrosspointSet) (i : SlotIx) (v : Slot) : CrosspointSet :=
  { x with slots := put x.slots i v }

/-- The LIVE slots with their connections, by rising index. -/
def CrosspointSet.live (x : CrosspointSet) : List (SlotIx × Connection) :=
  (List.finRange 64).filterMap fun i => (x.slots[i].connection?).map fun c => (i, c)

/-- The connection is the one the install asks for (R4, R6). -/
def Connection.matches (c : Connection) (r : Install) : Bool :=
  c.source == r.source && c.dest == r.dest && c.cls == r.cls

/-- The LIVE slot with the source, destination and class of the request (R6). -/
def CrosspointSet.matching (x : CrosspointSet) (r : Install) : Option (SlotIx × Connection) :=
  x.live.find? fun e => e.2.matches r

/-- The indices in the order of the search for a FREE slot: from the replacement pointer up, from 63 to
0 by wrap (R7). -/
def CrosspointSet.searchOrder (x : CrosspointSet) : List SlotIx :=
  (List.finRange 64).map fun i => x.pointer + i

/-- The first FREE slot met by the search (R7). -/
def CrosspointSet.firstFree (x : CrosspointSet) : Option SlotIx :=
  x.searchOrder.find? fun i => x.slots[i] == .free

/-- The age of a connection, reckoned modulo 2^32 (R8). -/
def Connection.age (c : Connection) (clock : Stamp) : Nat := (clock - c.stamp).toNat

/-- The oldest of a list of slots; of two of equal age, the one that stands first (R8). -/
def oldestOf (clock : Stamp) : List (SlotIx × Connection) → Option (SlotIx × Connection)
  | [] => none
  | e :: rest =>
    match oldestOf clock rest with
    | none => some e
    | some f => if f.2.age clock ≤ e.2.age clock then some e else some f

/-- The slots an install may evict: LIVE, of class TALK, not pinned (R8). -/
def CrosspointSet.candidates (x : CrosspointSet) : List (SlotIx × Connection) :=
  x.live.filter fun e => e.2.cls == .talk && !e.2.pinned

/-- The connection of a slot newly taken by an install (R7). -/
def Install.connection (r : Install) (clock : Stamp) : Connection :=
  ⟨r.source, r.dest, r.cls, r.gain, [r.owner], pinnedBy [r.owner], clock⟩

/-- The BUSY requests for the KEY owners of a connection (R8, R15). -/
def Connection.busyRequests (c : Connection) : List Request :=
  c.owners.filterMap fun
    | .key p k => some (.busyLamp p k)
    | .cue _ | .controller _ => none

/-- Remove from a slot the owners that satisfy `gone` (R11): others keep their order and the pinned flag
is recomputed; a slot left without owners becomes FREE; a slot that lists none of them is unchanged. -/
def Slot.remove (gone : Owner → Bool) : Slot → Slot
  | .live c =>
    if c.owners.any gone then
      let left := c.owners.filter fun o => !gone o
      if left.isEmpty then .free else .live { c with owners := left, pinned := pinnedBy left }
    else .live c
  | .lockedOut => .lockedOut
  | .free => .free
  | .retired => .retired

/-- Remove owners from every slot, as one request (R12). -/
def CrosspointSet.remove (x : CrosspointSet) (gone : Owner → Bool) : CrosspointSet :=
  { x with slots := each x.slots fun _ v => v.remove gone }

/-- The owner KEY(p, k). -/
def Owner.isKey (p : Port) (k : Key) (o : Owner) : Bool := o == .key p k

/-- A KEY owner of port `p`. -/
def Owner.isKeyOf (p : Port) : Owner → Bool
  | .key q _ => p == q
  | .cue _ | .controller _ => false

/-- The owner CUE(c). -/
def Owner.isCue (c : CircuitIx) (o : Owner) : Bool := o == .cue c

/-! ### Install (R6 to R10) -/

/-- The result of an install (R6 to R9). `illegal` is the refusal of a CHANNEL → CHANNEL connection
(R3). -/
inductive InstallResult where
  | new (i : SlotIx) (evicted : Option SlotIx)
  | merged (i : SlotIx)
  | alreadyOwner (i : SlotIx)
  | fullOwners (i : SlotIx)
  | noSlot
  | illegal
  deriving DecidableEq, Repr

/-- NEW, MERGED and ALREADY_OWNER are the successes (R72). -/
def InstallResult.succeeded : InstallResult → Bool
  | .new _ _ | .merged _ | .alreadyOwner _ => true
  | .fullOwners _ | .noSlot | .illegal => false

/-- A request that joins a LIVE slot with its connection (R6). -/
def State.installJoin (r : Install) (i : SlotIx) (c : Connection) (s : State) : State × InstallResult :=
  if c.owners.any fun o => o.same r.owner then (s, .alreadyOwner i)
  else if Config.ownerLimit ≤ c.owners.length then (s, .fullOwners i)
  else
    let owners := c.owners ++ [r.owner]
    (s.setXps (s.xps.setSlot i (.live { c with owners := owners, pinned := pinnedBy owners })), .merged i)

/-- A request that takes a FREE slot (R7), with the EXHAUSTED notice when it was the last (R10). -/
def State.installFree (r : Install) (i : SlotIx) (s : State) : State × InstallResult :=
  let x := { s.xps.setSlot i (.live (r.connection s.clock)) with pointer := i + 1 }
  let s := s.setXps x
  (if x.freeCount = 0 then s.offer (.slotFull i x.liveCount x.retiredCount none) else s, .new i none)

/-- A request that evicts the oldest unpinned TALK slot (R8). -/
def State.installEvict (r : Install) (i : SlotIx) (c : Connection) (s : State) : State × InstallResult :=
  let x := s.xps.setSlot i (.live (r.connection s.clock))
  let s := (c.busyRequests.foldl State.hand s).setXps x
  (s.offer (.slotFull i x.liveCount x.retiredCount (some (c.source, c.dest, c.cls))), .new i (some i))

/-- The crosspoint set takes an install whole (R3, R6 to R10). -/
def State.install (r : Install) (s : State) : State × InstallResult :=
  if r.source.isChannel && r.dest.isChannel then (s, .illegal)
  else
    match s.xps.matching r with
    | some (i, c) => s.installJoin r i c
    | none =>
      match s.xps.firstFree with
      | some i => s.installFree r i
      | none =>
        if r.cls.calls then
          match oldestOf s.clock s.xps.candidates with
          | some (i, c) => s.installEvict r i c
          | none => (s, .noSlot)
        else (s, .noSlot)

/-! ### Removals taken from other blocks (R12) -/

/-- A walk that bears a tag has installs still to send, or an abandoned one has sent an install for an owner
that the crosspoint set has still to take (R82, R131). -/
def State.installsLeft (s : State) (tag : Tag → Bool) (owner : Owner → Bool) : Bool :=
  s.walker.job.walk?.any (fun w => tag w.tag && w.phase.hitsLeft)
    || s.xps.abandoned.any fun r => owner r.owner

/-- Installs of keys of port `p` are still to be taken (R131). -/
def State.installsLeftForPort (s : State) (p : Port) : Bool :=
  s.installsLeft (fun t => t.ofPort p) (Owner.isKeyOf p)

/-- Installs of circuit `c` are still to be taken (R96). -/
def State.installsLeftForCircuit (s : State) (c : CircuitIx) : Bool :=
  s.installsLeft (fun t => t == .cue c) (Owner.isCue c)

/-- REMOVE_PORT_KEYS (R21): taken after the last install of a walk of the port that is making its hits
good (R131); the walker's row reset follows it (R130). -/
def execRemovePortKeys (p : Port) (s : State) : Host.Outcome State Fault Refusal :=
  .next <|
    if s.installsLeftForPort p then s
    else s.take (.removePortKeys p) fun s =>
      (s.setXps (s.xps.remove (Owner.isKeyOf p))).hand (.portRowReset p)

/-- REMOVE_CIRCUIT (R12, R96): taken after the last install of a walk of the circuit that is making its
hits good. -/
def execRemoveCircuit (c : CircuitIx) (s : State) : Host.Outcome State Fault Refusal :=
  .next <|
    if s.installsLeftForCircuit c then s
    else s.take (.removeCircuit c) fun s => s.setXps (s.xps.remove (Owner.isCue c))

/-- REMOVE_KEYS_AND_CUES (R20): every KEY and CUE owner leaves every slot. What the abandoned walk had
not sent, or had sent and the crosspoint set takes no more, is gone; the walker's and the cue engine's
resets follow (R174). -/
def execRemoveKeysAndCues (s : State) : Host.Outcome State Fault Refusal :=
  .next <| s.take .removeKeysAndCues fun s =>
    ((s.setXps { s.xps.remove (fun o => !o.isController) with abandoned := none }).hand
      .walkerReset).hand .circuitAbort

/-! ### Commands (1.7) -/

/-- SLOT_ENABLE (R14). -/
def slotEnable (ps : List Byte) (s : State) : State :=
  let first := (byteAt ps 0).toNat
  let count := (byteAt ps 1).toNat
  if first > 63 ∨ count = 0 ∨ count > 64 ∨ first + count > 64 then s.answer (.bare .badParam)
  else
    let covered (i : SlotIx) : Bool := first ≤ i.val && i.val < first + count
    let slots := each s.xps.slots fun i v => if covered i && v == .lockedOut then .free else v
    let moved := (List.finRange 64).countP fun i => covered i && s.xps.slots[i] == .lockedOut
    (s.setXps { s.xps with slots := slots }).answer (.ok [byte moved])

/-- SLOT_ENABLE (R14): moves the LOCKED_OUT slots of a range to FREE. -/
def execSlotEnable (s : State) : Host.Outcome State Fault Refusal := .next (s.begin 0x20 slotEnable)

/-- The slot a parameter byte names. -/
def slotParam (ps : List Byte) : Option SlotIx := index? 64 (byteAt ps 0).toNat

/-- Move slot `i` to RETIRED (R15), with the BUSY requests of its KEY owners and the EXHAUSTED notice
where it was the last FREE slot (R10). -/
def State.retire (i : SlotIx) (s : State) : State :=
  let before := s.xps.slots[i]
  let x := s.xps.setSlot i .retired
  match before with
  | .live c => (c.busyRequests.foldl State.hand s).setXps x
  | .free =>
    let s := s.setXps x
    if x.freeCount = 0 then s.offer (.slotFull i x.liveCount x.retiredCount none) else s
  | .lockedOut => s.setXps x
  | .retired => s

/-- The number of owners a slot lists. -/
def Slot.ownerCount (v : Slot) : Nat := (v.connection?.map fun c => c.owners.length).getD 0

/-- SLOT_RETIRE (R15). -/
def slotRetire (ps : List Byte) (s : State) : State :=
  match slotParam ps with
  | none => s.answer (.bare .badParam)
  | some i => (s.retire i).answer (.ok [byte s.xps.slots[i].code, byte s.xps.slots[i].ownerCount])

/-- SLOT_RETIRE (R15): moves a slot to RETIRED. -/
def execSlotRetire (s : State) : Host.Outcome State Fault Refusal := .next (s.begin 0x21 slotRetire)

/-- The reply of INSTALL CROSSPOINT for each result (R16, 12.5). -/
def InstallResult.answer (r : InstallResult) (clamped : Bool) : Answer :=
  match r with
  | .new i evicted => ⟨.done, clamped, [byte i.val, slotByte evicted]⟩
  | .merged i | .alreadyOwner i => ⟨.done, clamped, [byte i.val, noneByte]⟩
  | .fullOwners i => ⟨.fullOwners, false, [byte i.val, noneByte]⟩
  | .noSlot => ⟨.noSlot, false, [noneByte, noneByte]⟩
  | .illegal => .bare .badParam

/-- INSTALL_CROSSPOINT (R16). -/
def installCrosspoint (ps : List Byte) (s : State) : State :=
  let gain := (wordAt ps 3).toNat
  match Endpoint.decode (byteAt ps 0), Endpoint.decode (byteAt ps 1),
      SlotClass.decode (byteAt ps 2).toNat with
  | some source, some dest, some cls =>
    let r := s.install ⟨source, dest, cls, min gain Config.gainTop, .controller (byteAt ps 5 != 0)⟩
    r.1.answer (r.2.answer (decide (Config.gainTop < gain)))
  | _, _, _ => s.answer (.bare .badParam)

/-- INSTALL_CROSSPOINT (R16): installs a connection with owner CONTROLLER. -/
def execInstallCrosspoint (s : State) : Host.Outcome State Fault Refusal :=
  .next (s.begin 0x22 installCrosspoint)

/-- REMOVE_CROSSPOINT (R17). -/
def removeCrosspoint (ps : List Byte) (s : State) : State :=
  match slotParam ps with
  | none => s.answer (.bare .badParam)
  | some i =>
    match s.xps.slots[i] with
    | .live c =>
      if c.owners.any Owner.isController then
        let v := Slot.remove Owner.isController (.live c)
        (s.setXps (s.xps.setSlot i v)).answer (.ok [byte v.code])
      else s.answer (.bare .notOwner)
    | .lockedOut | .free | .retired => s.answer (.bare .notOwner)

/-- REMOVE_CROSSPOINT (R17): removes the CONTROLLER owner from a named slot. -/
def execRemoveCrosspoint (s : State) : Host.Outcome State Fault Refusal :=
  .next (s.begin 0x23 removeCrosspoint)

/-- SET_GAIN (R18). -/
def setGain (ps : List Byte) (s : State) : State :=
  let gain := (wordAt ps 1).toNat
  match slotParam ps with
  | none => s.answer (.bare .badParam)
  | some i =>
    match s.xps.slots[i] with
    | .live c =>
      (s.setXps (s.xps.setSlot i (.live { c with gain := min gain Config.gainTop }))).answer
        ⟨.done, decide (Config.gainTop < gain), []⟩
    | .lockedOut | .free | .retired => s.answer (.bare .badParam)

/-- SET_GAIN (R18): sets the gain of a LIVE slot. -/
def execSetGain (s : State) : Host.Outcome State Fault Refusal := .next (s.begin 0x24 setGain)

/-- Part 0 of a slot: state, class, source, destination, gain, pinned flag, number of owners (R19). -/
def Slot.part0 (v : Slot) : List Byte :=
  match v.connection? with
  | some c =>
    [byte v.code, byte c.cls.code, c.source.encode, c.dest.encode] ++ bytes16 c.gain
      ++ [byte (bit c.pinned), byte c.owners.length]
  | none => [byte v.code, noneByte, noneByte, noneByte, 0, 0, 0, 0]

/-- An owner in two bytes (12.5). -/
def Owner.bytes : Owner → List Byte
  | .key p k => [0, byte (8 * p.val + k.val)]
  | .cue c => [1, byte c.val]
  | .controller pin => [2, byte (bit pin)]

/-- Part 1 of a slot: the owner list in joining order, four places (R19). -/
def Slot.part1 (v : Slot) : List Byte :=
  match v.connection? with
  | some c =>
    ((c.owners.map Owner.bytes ++ List.replicate 4 [noneByte, 0]).take 4).flatten
  | none => (List.replicate 4 [noneByte, (0 : Byte)]).flatten

/-- Part 2 of a slot: install stamp, replacement pointer, slot counts (R19). -/
def CrosspointSet.part2 (x : CrosspointSet) (v : Slot) : List Byte :=
  bytesOf32 ((v.connection?.map Connection.stamp).getD 0)
    ++ [byte x.pointer.val, byte (x.count 0), byte (x.count 1), byte (x.count 2), byte (x.count 3)]

/-- READ_SLOT (R19). -/
def readSlot (ps : List Byte) (s : State) : Answer :=
  match slotParam ps, (byteAt ps 1).toNat with
  | some i, 0 => .ok s.xps.slots[i].part0
  | some i, 1 => .ok s.xps.slots[i].part1
  | some i, 2 => .ok (s.xps.part2 s.xps.slots[i])
  | _, _ => .bare .badParam

/-- READ_SLOT (R19): returns one part of a slot's record. -/
def execReadSlot (s : State) : Host.Outcome State Fault Refusal := .next (s.beginRead 0x25 readSlot)

end Sys2Proof.Machine
end

