-- ==== Sys2Proof/Machine/Directory.lean ====
section
/-!
DEFINITION. The talk path directory (chapter 3): table RAM as a canonical list, reads with error
correction and poisoning, the record checks, the hash and the reading of a chain, and the commands that
reach table RAM.
-/

namespace Sys2Proof.Machine

/-! ### Table RAM -/

/-- What a place of table RAM holds; a place that is not listed holds its initialised value (R40). -/
def TableRam.read : TableRam → Nat → RecordPlace
  | [], _ => RecordPlace.initial
  | (j, x) :: rest, i => if i = j then x else TableRam.read rest i

/-- Write a place, keeping the list by rising place number and without initialised values. -/
def TableRam.write : TableRam → Nat → RecordPlace → TableRam
  | [], i, x => if x = RecordPlace.initial then [] else [(i, x)]
  | (j, y) :: rest, i, x =>
    if i < j then (if x = RecordPlace.initial then (j, y) :: rest else (i, x) :: (j, y) :: rest)
    else if i = j then (if x = RecordPlace.initial then rest else (i, x) :: rest)
    else (j, y) :: TableRam.write rest i x

/-- The canonical form of table RAM: places strictly rising and below 1024, none at its initialised
value. -/
abbrev TableRam.wf (m : TableRam) : Prop :=
  m.Pairwise (fun a b => a.1 < b.1) ∧ ∀ e ∈ m, e.1 < 1024 ∧ e.2 ≠ RecordPlace.initial

/-- An error arises in a place, as the next read of it finds it. -/
def TableRam.upset (m : TableRam) (u : Place × Upset) : TableRam :=
  let x := m.read u.1.val
  m.write u.1.val { x with
    ecc := match u.2, x.ecc with
      | .oneBit, .clean => .oneBit
      | .oneBit, e => e
      | .uncorrectable, _ => .uncorrectable }

/-- The errors that have newly arisen. -/
def TableRam.upsetAll (m : TableRam) (us : Upsets) : TableRam := us.foldl TableRam.upset m

/-- Write back the corrected content with a fresh code (R50): the content is unchanged. -/
def TableRam.scrub (m : TableRam) (i : Place) : TableRam :=
  m.write i.val { m.read i.val with ecc := .clean }

/-- What a read of a place gives: nothing for a POISONED place, otherwise the content, with whether it
was corrected. -/
inductive Fetched where
  | poisoned
  | content (r : Record) (corrected : Bool)
  deriving DecidableEq, Repr

/-- Read a place against its check code (R50, R51): what it gives, table RAM after it (an uncorrectable
error sets the poison mark), and the faults reported. -/
def TableRam.fetch (m : TableRam) (i : Place) : Fetched × TableRam × List (FaultKind × Location) :=
  let x := m.read i.val
  if x.poisoned then (.poisoned, m, [])
  else
    match x.ecc with
    | .clean => (.content x.content false, m, [])
    | .oneBit => (.content x.content true, m, [(.ramCorrected, .place i)])
    | .uncorrectable =>
      (.poisoned, m.write i.val { x with poisoned := true }, [(.ramPoisoned, .place i)])

/-! ### Key codes, homes and chains (R48, R49) -/

/-- The key code of a tag (R48). -/
def Tag.keyCode : Tag → Nat
  | .key p k => p.val * 16 + k.val
  | .cue c => 256 + c.val

/-- The hash of a tag (R48). -/
def Tag.hash (t : Tag) : Nat := (t.keyCode * 73) % 1024

/-- The place that an offset names in a region (R49). -/
def Region.place (r : Region) (offset : Nat) : Place :=
  match r with
  | .span64 i => ⟨64 * i.val + offset % 64, by omega⟩
  | .span128 i => ⟨128 * i.val + offset % 128, by omega⟩
  | .span256 i => ⟨256 * i.val + offset % 256, by omega⟩
  | .span512 i => ⟨512 * i.val + offset % 512, by omega⟩

/-- The home record of a tag (R48). -/
def Region.home (r : Region) (t : Tag) : Place := r.place (t.hash % r.span)

/-- The record's NEXT leads to no further place of the region (R49, R69). -/
def Record.endsChain (r : Record) (span : Nat) : Bool := r.isLast || decide (span ≤ r.next.toNat)

/-- Note a valid record in a reading (R69 step 3). -/
def Reading.note (a : Reading) (tag : Tag) (scene : Scene) (i : Place) (r : Record) : Reading :=
  let a := { a with lastValid := some i }
  if r.tag? = some tag then
    if r.scenes.getLsbD scene.val then
      if a.hits.length < Config.hitLimit then { a with hits := a.hits ++ [⟨i, r⟩] }
      else { a with ignored := a.ignored + 1, firstIgnored := a.firstIgnored <|> some i }
    else { a with firstUnarmed := a.firstUnarmed <|> some i }
  else a

/-- Read a chain from place `i`, `fuel` places more being allowed after it (R69, R70): what was read,
table RAM after it, and the faults reported in order. -/
def readChain (tag : Tag) (region : Region) (scene : Scene) :
    Nat → TableRam → Place → Reading → Reading × TableRam × List (FaultKind × Location)
  | fuel, m, i, a =>
    let f := m.fetch i
    let a := { a with visited := a.visited + 1 }
    match f.1 with
    | .poisoned => ({ a with ending := .poisoned i }, f.2.1, f.2.2)
    | .content r corrected =>
      let a := if corrected then { a with scrubs := a.scrubs ++ [i] } else a
      if r.valid then
        let a := a.note tag scene i r
        if r.endsChain region.span then ({ a with ending := .chainEnd }, f.2.1, f.2.2)
        else
          match fuel with
          | 0 => ({ a with ending := .chainLimit i }, f.2.1, f.2.2 ++ [(.chainLimit, .place i)])
          | fuel + 1 =>
            let rest := readChain tag region scene fuel f.2.1 (region.place r.next.toNat) a
            (rest.1, rest.2.1, f.2.2 ++ rest.2.2)
      else ({ a with ending := .invalid i }, f.2.1, f.2.2)

/-- A reading that has visited no place (R68). -/
def Reading.start (home : Place) : Reading := ⟨home, 0, [], 0, none, none, none, .chainEnd, []⟩

/-- The reading of a walk: at most 16 places from the home record (R68 to R70). -/
def readWalk (tag : Tag) (region : Region) (scene : Scene) (m : TableRam) :
    Reading × TableRam × List (FaultKind × Location) :=
  readChain tag region scene (Config.visitLimit - 1) m (region.home tag)
    (.start (region.home tag))

/-! ### Writing records (R42 to R44) -/

/-- The checks of a record with VALID = yes against the span in force (R42). -/
def Record.accepted (r : Record) (span : Nat) : Bool :=
  let cls := r.cls.toNat
  let source := Endpoint.decode r.source
  let dest := Endpoint.decode r.dest
  r.tag?.isSome
    && (if r.tagCue then cls == 4 else decide (cls ≤ callCode))
    && (cls != callCode || dest.any Endpoint.isPort)
    && source.isSome && dest.isSome
    && !(source.any Endpoint.isChannel && dest.any Endpoint.isChannel)
    && (KeyMode.decode r.mode).isSome
    && (r.isLast || decide (r.next.toNat < span))

/-- The gain is over 512 in a record that is clamped when it is stored (R43). -/
def Record.overGain (r : Record) : Bool := r.valid && decide (Config.gainTop < r.gain.toNat)

/-- The record as it is stored (R43). -/
def Record.stored (r : Record) : Record :=
  if r.overGain then { r with gain := BitVec.ofNat 16 Config.gainTop } else r

/-! ### Accesses of the management engine (R52, R162) -/

/-- The reply of READ RECORD: the record, and whether its place is inside the region in force, with its
base and span (R56, 12.5). -/
def Record.readBytes (r : Record) (region : Region) (i : Place) : List Byte :=
  let inside := decide (region.base ≤ i.val ∧ i.val < region.base + region.span)
  r.encode ++ [byte (128 * bit inside + 16 * region.spanCode + region.base / 64)]

/-- READ RECORD reads its place once (R56). -/
def State.readPlace (i : Place) (upsets : Upsets) (s : State) : State :=
  let f := (s.directory.ram.upsetAll upsets).fetch i
  match f.1 with
  | .poisoned =>
    ((s.setDirectory { s.directory with ram := f.2.1 }).reportAll f.2.2).answer (.bare .poisoned)
  | .content r corrected =>
    let ram := if corrected then f.2.1.scrub i else f.2.1
    ((s.setDirectory { s.directory with ram := ram }).reportAll f.2.2).answer
      (.ok (r.readBytes s.directory.region i))

/-- An access is granted the table port and carried out, and the port is released (R46, R47, R56). -/
def State.access (a : Access) (upsets : Upsets) (s : State) : State :=
  State.accessEnded <|
    match a with
    | .readRecord i => s.readPlace i upsets
    | .setRegion r =>
      (s.setDirectory { s.directory with region := r }).answer (.ok s.directory.region.bytes)
    | .setScene c =>
      (s.setDirectory { s.directory with scene := c }).answer (.ok [byte s.directory.scene.val])

/-- An access asks for the table port: granted at once where the port is free for it, otherwise it waits
(R52, R54). -/
def State.askPort (a : Access) (upsets : Upsets) (s : State) : State :=
  if s.accessGranted then s.access a upsets else s.execute (.access a)

/-- DIRECTORY_SETUP (R46). -/
def directorySetup (ps : List Byte) (s : State) : State :=
  match Region.check (wordAt ps 0).toNat (wordAt ps 2).toNat with
  | .error status => s.answer (.bare status)
  | .ok region => s.askPort (.setRegion region) []

/-- DIRECTORY_SETUP (R46): checks a new region and waits for the table port to set it. -/
def execDirectorySetup (s : State) : Host.Outcome State Fault Refusal :=
  .next (s.begin 0x30 directorySetup)

/-- SELECT_SCENE (R47). -/
def selectScene (ps : List Byte) (s : State) : State :=
  match index? 8 (byteAt ps 0).toNat with
  | none => s.answer (.bare .badParam)
  | some scene => s.askPort (.setScene scene) []

/-- SELECT_SCENE (R47): checks a scene and waits for the table port to set it. -/
def execSelectScene (s : State) : Host.Outcome State Fault Refusal := .next (s.begin 0x33 selectScene)

/-- READ_RECORD (R56). -/
def readRecord (upsets : Upsets) (ps : List Byte) (s : State) : State :=
  match index? 1024 (wordAt ps 0).toNat with
  | none => s.answer (.bare .badParam)
  | some i => s.askPort (.readRecord i) upsets

/-- READ_RECORD (R56): reads one record place through the table port. -/
def execReadRecord (upsets : Upsets) (s : State) : Host.Outcome State Fault Refusal :=
  .next (s.begin 0x32 (readRecord upsets))

/-- TABLE_PORT_GRANT (R52): the waiting access of the management engine is carried out. -/
def execTablePortGrant (upsets : Upsets) (s : State) : Host.Outcome State Fault Refusal :=
  .next <|
    match s.management.execution with
    | .access a => if s.accessGranted then s.access a upsets else s
    | .none | .load _ | .softReset _ => s

/-- RAM_INITIALISATION_END (R55): every place holds the initialised content with a clean code and a
clear poison mark, and the table port is free. -/
def execRamInitialisationEnd (s : State) : Host.Outcome State Fault Refusal :=
  .next <|
    if s.directory.initialising then
      s.setDirectory { s.directory with ram := [], initialising := false }
    else s

end Sys2Proof.Machine
end

