-- ==== Sys2Proof/Machine/Walker.lean ====
section
/-!
DEFINITION. The path walker (chapter 4): taking key events, the key state table, walks from the grant of
the table port to their outcome, call counts, BUSY requests, port row reset and the walker's part of
soft reset.
-/

namespace Sys2Proof.Machine

/-! ### Key entries (4.3) -/

/-- What handling one press, release or key level leaves to do: nothing, or a walk (R64 to R67). -/
inductive KeyWork where
  | done
  | walk (tag : Tag) (retry : Bool)
  deriving DecidableEq, Repr

/-- A key returns to OFF with its lamp OFF. -/
def KeyEntry.toOff (e : KeyEntry) : KeyEntry := { e with state := .off, lamp := .off }

/-- Lower the call count of each port of a call list, once for each appearance (R66). -/
def lowerCalls (calls : Vector Nat 16) (ports : List Port) : Vector Nat 16 :=
  ports.foldl (fun v p => adjust v p fun n => n - 1) calls

/-- The crosspoint set takes a remove key request (R12): the key leaves every slot. -/
def State.takeRemoveKey (p : Port) (k : Key) (s : State) : State := s.setXps (s.xps.remove (Owner.isKey p k))

/-- Remove key `(p, k)` (R66): the remove key request is sent, and the crosspoint set takes it, so that at no
moment a slot carries the key while it is OFF (R73); the call counts of its call list are lowered and the list
is emptied; the key goes OFF with its lamp OFF (R64, R65), its swallow-release flag being set where a press
cancelled its latch. -/
def State.removeKey (p : Port) (k : Key) (swallow : Bool) (s : State) : State :=
  let e := s.entry p k
  let s := s.takeRemoveKey p k
  let s := s.setWalker { s.walker with calls := lowerCalls s.walker.calls e.calls }
  s.setEntry p k { e.toOff with calls := [], swallow := e.swallow || swallow }

/-- A press of key `(p, k)` (R64). -/
def State.press (p : Port) (k : Key) (stamp : Stamp) (s : State) : State × KeyWork :=
  let e := s.entry p k
  match e.state with
  | .off | .missed | .refused =>
    (s.setEntry p k { e with swallow := false, stamp := stamp }, .walk (.key p k) false)
  | .held => (s, .done)
  | .latched => (s.removeKey p k true, .done)

/-- A release with this stamp removes the HELD key, by its mode; otherwise it latches it (R65). -/
def KeyEntry.letsGo (e : KeyEntry) (stamp : Stamp) : Bool :=
  match e.mode with
  | .momentary => true
  | .latching => false
  | .auto => decide (Config.autoThreshold ≤ (stamp - e.stamp).toNat)

/-- The release of a HELD key by its mode (R65). -/
def State.releaseHeld (p : Port) (k : Key) (stamp : Stamp) (s : State) : State × KeyWork :=
  let e := s.entry p k
  if e.letsGo stamp then (s.removeKey p k false, .done)
  else (s.setEntry p k { e with state := .latched }, .done)

/-- A release of key `(p, k)` (R65). -/
def State.release (p : Port) (k : Key) (stamp : Stamp) (s : State) : State × KeyWork :=
  let e := s.entry p k
  if e.swallow then (s.setEntry p k { e with swallow := false }, .done)
  else
    match e.state with
    | .held => s.releaseHeld p k stamp
    | .missed | .refused => (s.setEntry p k e.toOff, .done)
    | .off | .latched => (s, .done)

/-- One key of a STATE event (R67). -/
def State.applyLevel (l : KeyLevel) (s : State) : State × KeyWork :=
  let e := s.entry l.port l.key
  if l.down then
    match e.state with
    | .off => if e.swallow then (s, .done) else s.press l.port l.key l.stamp
    | .held | .latched | .missed | .refused => (s, .done)
  else
    match e.state with
    | .held => s.releaseHeld l.port l.key l.stamp
    | .missed | .refused => (s.setEntry l.port l.key e.toOff, .done)
    | .off | .latched => (s.setEntry l.port l.key { e with swallow := false }, .done)

/-- Apply the keys of a STATE event in order until one calls for a walk (R62, R67); the walker then has that
in hand, and otherwise it is idle. -/
def State.applyLevels : List KeyLevel → State → State
  | [], s => s.setJob .idle
  | l :: rest, s =>
    let r := s.applyLevel l
    match r.2 with
    | .done => State.applyLevels rest r.1
    | .walk tag retry => r.1.setJob (.waiting tag retry rest)

/-- Go on from the work that an event left: nothing, or a walk. -/
def State.workOn (r : State × KeyWork) : State :=
  match r.2 with
  | .done => r.1.setJob .idle
  | .walk tag retry => r.1.setJob (.waiting tag retry [])

/-- The levels of keys 0 to 4 that a STATE carries (R67). -/
def keyLevels (p : Port) (bitmap : BitVec 7) (stamp : Stamp) : List KeyLevel :=
  (List.finRange 5).map fun k => ⟨p, k, bitmap.getLsbD k.val, stamp⟩

/-- The key is MISSED or REFUSED (R62, R71, R79). -/
def KeyEntry.failed (e : KeyEntry) : Bool := e.state == .missed || e.state == .refused

/-- Handle or skip an event that has been taken (R62). -/
def State.handle (e : KeyEvent) (s : State) : State :=
  match e with
  | .press p k stamp => if s.isUp p then State.workOn (s.press p k stamp) else s
  | .release p k stamp => if s.isUp p then State.workOn (s.release p k stamp) else s
  | .state p bitmap stamp => if s.isUp p then s.applyLevels (keyLevels p bitmap stamp) else s
  | .cueOpen c => if s.circuits[c].state = .idle then s else State.workOn (s, .walk (.cue c) false)
  | .retry p k =>
    if s.isUp p ∧ (s.entry p k).failed then State.workOn (s, .walk (.key p k) true) else s

/-- A soft reset has reached the walker, and the crosspoint set, the walker or the cue engine has its
request still to take (R82, R107): the walker takes no event meanwhile. -/
def State.resetPending (s : State) : Bool :=
  decide (Request.removeKeysAndCues ∈ s.requests) || decide (Request.walkerReset ∈ s.requests)
    || decide (Request.circuitAbort ∈ s.requests)

/-- The walker may take an event (R62, R82). -/
def State.mayTake (s : State) : Bool :=
  s.walker.job == .idle && !s.directory.initialising && !s.resetPending

/-- KEY_EVENT_TAKE (R62): the walker, with nothing in hand, takes the event at the head of the queue. -/
def execKeyEventTake (s : State) : Host.Outcome State Fault Refusal :=
  .next <|
    match s.walker.queue with
    | [] => s
    | e :: rest => if s.mayTake then (s.setWalker { s.walker with queue := rest }).handle e else s

/-! ### The remove key request (R12) -/

/-- The first key that the levels of a STATE remove, unless a key before it calls for a walk (R67). -/
def State.levelsRemove (s : State) : List KeyLevel → Option (Port × Key)
  | [] => none
  | l :: rest =>
    let e := s.entry l.port l.key
    if l.down then
      if e.state = .off ∧ e.swallow = false then none else s.levelsRemove rest
    else if e.state = .held ∧ e.letsGo l.stamp then some (l.port, l.key)
    else s.levelsRemove rest

/-- The key that an event of a port that is UP removes (R12, R64, R65, R67): a LATCHED key that is pressed, a
HELD key whose release by its mode lets it go, the first that a STATE removes. -/
def State.removedBy (s : State) : KeyEvent → Option (Port × Key)
  | .press p k _ => if (s.entry p k).state = .latched then some (p, k) else none
  | .release p k stamp =>
    let e := s.entry p k
    if e.swallow = false ∧ e.state = .held ∧ e.letsGo stamp then some (p, k) else none
  | .state p bitmap stamp => s.levelsRemove (keyLevels p bitmap stamp)
  | .cueOpen _ | .retry _ _ => none

/-- REMOVE_KEY (R12): the crosspoint set takes the remove key request of the event at the head of the queue,
which the walker may take, ahead of the rest of what that event does: R66 sends the request first. Where
KEY_EVENT_TAKE comes alone, the crosspoint set takes the request within it (log 5). -/
def execRemoveKey (p : Port) (k : Key) (s : State) : Host.Outcome State Fault Refusal :=
  .next <|
    match s.walker.queue with
    | [] => s
    | e :: _ =>
      if s.mayTake ∧ s.isUp p ∧ s.removedBy e = some (p, k) then s.takeRemoveKey p k else s

/-! ### The walk (4.4) -/

/-- WALK_START (R68 to R70): the waiting walk is granted the table port and reads its chain. -/
def execWalkStart (upsets : Upsets) (s : State) : Host.Outcome State Fault Refusal :=
  .next <|
    match s.walker.job with
    | .waiting tag retry rest =>
      if s.walkGranted then
        let d := s.directory
        let r := readWalk tag d.region d.scene (d.ram.upsetAll upsets)
        ((s.setDirectory { d with ram := r.2.1, turn := .either }).setJob
          (.walking ⟨tag, retry, r.1, .read, false, false⟩ rest)).reportAll r.2.2
      else s
    | .idle | .walking _ _ => s

/-- The walk may act (R71): its port did not drop and its circuit did not enter IDLE before its reading ended, and
the port is UP, or the circuit not IDLE, at this moment. -/
def State.walkActs (s : State) (w : Walk) : Bool :=
  !w.suppressed &&
    match w.tag with
    | .key p k => s.isUp p && (!w.retry || (s.entry p k).failed)
    | .cue c => s.circuits[c].state != .idle

/-- A request of the port's drop, or of the circuit's return to IDLE, is still to be taken before the
walk decides (R71, R96, R131). -/
def State.decisionHeld (s : State) (tag : Tag) : Bool :=
  match tag with
  | .key p _ =>
    decide (Request.removePortKeys p ∈ s.requests) || decide (Request.portRowReset p ∈ s.requests)
  | .cue c => decide (Request.removeCircuit c ∈ s.requests)

/-- The hit raises a call count instead of installing (R72). -/
def Hit.isCall (tag : Tag) (h : Hit) : Bool :=
  match tag with
  | .key _ _ => h.content.cls.toNat == callCode
  | .cue _ => false

/-- The owner for whom a walk installs (R72). -/
def Tag.owner : Tag → Owner
  | .key p k => .key p k
  | .cue c => .cue c

/-- The install of a hit (R72); `none` for a record that R42 would have rejected. -/
def Hit.install? (tag : Tag) (h : Hit) : Option Install :=
  match Endpoint.decode h.content.source, Endpoint.decode h.content.dest,
      SlotClass.decode h.content.cls.toNat with
  | some source, some dest, some cls =>
    some ⟨source, dest, cls, h.content.gain.toNat, tag.owner⟩
  | _, _, _ => none

/-- A CALL hit of key `(p, k)` is made good (R72): the call count of its port gains one and the port joins
the key's call list. -/
def State.raiseCall (p : Port) (k : Key) (h : Hit) (s : State) : State :=
  match Endpoint.decode h.content.dest with
  | some (.port q) =>
    let e := s.entry p k
    (s.setWalker { s.walker with calls := adjust s.walker.calls q (· + 1) }).setEntry p k
      { e with calls := e.calls ++ [q] }
  | _ => s

/-- Make good the CALL hits that stand first; what is left begins with an install (R72). -/
def State.settleCalls (tag : Tag) : List Hit → Bool → State → State × List Hit × Bool
  | [], ok, s => (s, [], ok)
  | h :: rest, ok, s =>
    if h.isCall tag then
      match tag with
      | .key p k => State.settleCalls tag rest true (s.raiseCall p k h)
      | .cue _ => State.settleCalls tag rest ok s
    else (s, h :: rest, ok)

/-- The walk ends (R53, R71): the table port releases the held scrubs in reading order and goes to a
waiting access, and the walker goes on with the event in hand: with the keys of a STATE that are left, whether
or not its port has dropped meanwhile, for R81 removes queued events alone (DESIGN CHOICE, log 20). -/
def State.endWalk (w : Walk) (rest : List KeyLevel) (s : State) : State :=
  let ram := w.reading.scrubs.foldl TableRam.scrub s.directory.ram
  ((s.setDirectory { s.directory with ram := ram }).walkReleased).applyLevels rest

/-- The reason of a PATH_MISS without hits and the record index that goes with it (R75). -/
def Reading.miss (r : Reading) : MissReason × Place :=
  let unmatched : MissReason × Place :=
    match r.firstUnarmed with
    | some i => (.unarmed, i)
    | none => (.noMatch, r.lastValid.getD r.home)
  match r.ending with
  | .poisoned i => (.poisoned, i)
  | .chainLimit i => (.chainLimit, i)
  | .invalid i => if r.visited = 1 then (.emptyHome, i) else unmatched
  | .chainEnd => unmatched

/-- A walk that acts and has no hit (R73, R74, R75). -/
def State.walkMissed (w : Walk) (s : State) : State :=
  let why := w.reading.miss
  let s :=
    match w.tag with
    | .key p k => s.setEntry p k { s.entry p k with state := .missed, lamp := .miss, mode := .momentary }
    | .cue _ => s
  s.offer (.pathMiss w.tag why.1 why.2 w.reading.visited w.reading.ignored)

/-- The mode that a walk's first hit gives its key (R72). -/
def Reading.mode (r : Reading) : KeyMode :=
  ((r.hits.head?).bind fun h => KeyMode.decode h.content.mode).getD .momentary

/-- A walk that acts and has hits begins to make them good (R72): a key gets its mode and is HELD before
the first install is sent. -/
def State.startMaking (w : Walk) (s : State) : State × List Hit × Bool :=
  let s :=
    match w.tag with
    | .key p k => s.setEntry p k { s.entry p k with mode := w.reading.mode, state := .held }
    | .cue _ => s
  s.settleCalls w.tag w.reading.hits false

/-- The outcome of a walk whose hits are made good (R73, R74), with EXCESS_HITS where hits were ignored
(R76). A BUSY request held meanwhile is applied after the lamp is set (R73). -/
def State.walkOutcome (w : Walk) (ok : Bool) (s : State) : State :=
  let s :=
    match w.tag with
    | .key p k =>
      if ok then
        s.setEntry p k { s.entry p k with
          state := .held, lamp := if w.busyHeld then .busy else .on }
      else
        (s.setEntry p k { s.entry p k with state := .refused, lamp := .busy }).report .slotExhausted
          (.port p)
    | .cue c => if ok then s else s.report .slotExhausted (.circuit c)
  match w.reading.firstIgnored with
  | some i =>
    s.offer (.pathMiss w.tag .excessHits i w.reading.visited w.reading.ignored)
  | none => s

/-- WALK_END (R71 to R76): a walk that has read its chain decides whether it may act; a walk that has
made its hits good sets its outcome. While an install is still to be taken by the crosspoint set, the
walk waits. -/
def execWalkEnd (s : State) : Host.Outcome State Fault Refusal :=
  .next <|
    match s.walker.job with
    | .walking w rest =>
      match w.phase with
      | .read =>
        if s.decisionHeld w.tag then s
        else if s.walkActs w then
          if w.reading.hits.isEmpty then (s.walkMissed w).endWalk w rest
          else
            let r := s.startMaking w
            if r.2.1.isEmpty then (r.1.walkOutcome w r.2.2).endWalk w rest
            else r.1.setJob (.walking { w with phase := .making r.2.1 r.2.2 } rest)
        else s.endWalk w rest
      | .making [] ok => (s.walkOutcome w ok).endWalk w rest
      | .making (_ :: _) _ => s
    | .idle | .waiting _ _ _ => s

/-- The crosspoint set takes the install of a hit and hands its result back (R72): whether it
succeeded. -/
def State.installHit (tag : Tag) (h : Hit) (s : State) : State × Bool :=
  match h.install? tag with
  | some r => let out := s.install r; (out.1, out.2.succeeded)
  | none => (s, false)

/-- CROSSPOINT_INSTALL (R6 to R10, R72): the crosspoint set takes the install of the walk's next hit, and
the walk goes on to its next install; after a soft reset it takes the install that the abandoned walk
had sent (R82). -/
def execCrosspointInstall (s : State) : Host.Outcome State Fault Refusal :=
  .next <|
    match s.walker.job, s.xps.abandoned with
    | .walking w rest, _ =>
      match w.phase with
      | .making (h :: hs) ok =>
        let out := s.installHit w.tag h
        let r := out.1.settleCalls w.tag hs (ok || out.2)
        r.1.setJob (.walking { w with phase := .making r.2.1 r.2.2 } rest)
      | .making [] _ | .read => s
    | _, some r =>
      let t := (s.install r).1
      t.setXps { t.xps with abandoned := none }
    | _, none => s

/-! ### Lamps, row resets and STATE events -/

/-- A BUSY request applied to a key entry (R77). -/
def KeyEntry.busy (e : KeyEntry) : KeyEntry :=
  match e.state with
  | .held | .latched => { e with lamp := .busy }
  | .off | .missed | .refused => e

/-- BUSY_LAMP_REQUEST (R77): held where the walk in flight is making good the hits of this very key
(R73). -/
def execBusyLampRequest (p : Port) (k : Key) (s : State) : Host.Outcome State Fault Refusal :=
  .next <| s.take (.busyLamp p k) fun s =>
    match s.walker.job with
    | .walking w rest =>
      if w.tag = .key p k ∧ w.phase.isMaking then s.setJob (.walking { w with busyHeld := true } rest)
      else s.setEntry p k (s.entry p k).busy
    | .idle | .waiting _ _ _ => s.setEntry p k (s.entry p k).busy

/-- The row of port `p` may be reset: no walk of the port is making its hits good (R131). -/
def State.rowFree (s : State) (p : Port) : Bool :=
  match s.walker.job with
  | .walking w _ => !(w.tag.ofPort p && w.phase.isMaking)
  | .idle | .waiting _ _ _ => true

/-- The key events of port `p`; CUE_OPEN events are no port's (R81). -/
def KeyEvent.ofPort (p : Port) : KeyEvent → Bool
  | .press q _ _ | .release q _ _ | .state q _ _ | .retry q _ => p == q
  | .cueOpen _ => false

/-- Reset the row of port `p` (R81): the call counts its keys raised are lowered, its five entries take
their initial values, and its events leave the queue. -/
def Walker.resetRow (w : Walker) (p : Port) : Walker :=
  { w with
    calls := lowerCalls w.calls ((w.keys[p].toList.map KeyEntry.calls).flatten)
    keys := put w.keys p (Vector.replicate 5 KeyEntry.initial)
    queue := w.queue.filter fun e => !e.ofPort p }

/-- PORT_ROW_RESET (R81), handed to the walker once the crosspoint set has taken the port's removal
(R130). -/
def execPortRowReset (p : Port) (s : State) : Host.Outcome State Fault Refusal :=
  .next <|
    if s.rowFree p then s.take (.portRowReset p) fun s => s.setWalker (s.walker.resetRow p) else s

/-- The drop of port `p` has still to be taken by the crosspoint set or the walker. -/
def State.dropPending (s : State) (p : Port) : Bool :=
  decide (Request.removePortKeys p ∈ s.requests) || decide (Request.portRowReset p ∈ s.requests)

/-- STATE_POST (R60): a port whose resync flag is set posts its STATE below 16 queued events. -/
def execStatePost (p : Port) (s : State) : Host.Outcome State Fault Refusal :=
  .next <|
    let x := s.ports[p]
    if x.resync ∧ s.walker.queue.length < Config.statePostLimit ∧ !s.dropPending p then
      (s.setPort p { x with resync := false }).enqueue (.state p x.keys s.clock)
    else s

/-- WALKER_RESET (R82): once the crosspoint set has taken remove keys and cues, every entry and every
call count takes its initial value. -/
def execWalkerReset (s : State) : Host.Outcome State Fault Refusal :=
  .next <| s.take .walkerReset fun s =>
    (s.setWalker { s.walker with keys := Walker.initial.keys, calls := Walker.initial.calls }).resetTaken

/-! ### RETRY KEY (4.7) -/

/-- RETRY_KEY (R79). -/
def retryKey (ps : List Byte) (s : State) : State :=
  match index? 16 (byteAt ps 0).toNat, index? 5 (byteAt ps 1).toNat with
  | some p, some k =>
    if (s.entry p k).failed then
      if s.walker.queue.length < Config.keyQueueCapacity then
        (s.enqueue (.retry p k)).answer (.bare .done)
      else s.answer (.bare .full)
    else s.answer (.bare .notHeld)
  | _, _ => s.answer (.bare .badParam)

/-- RETRY_KEY (R79): queues a RETRY event for a MISSED or REFUSED key. -/
def execRetryKey (s : State) : Host.Outcome State Fault Refusal := .next (s.begin 0x34 retryKey)

end Sys2Proof.Machine
end

