-- ==== Sys2Proof/Machine/Reset.lean ====
section
/-!
DEFINITION. Pin reset and the SOFT RESET command (00_scope 2.6, R174). The parts of a soft reset that
the blocks carry out are theirs: `execRemoveKeysAndCues`, `execWalkerReset`, `execCircuitAbort` and
`execPortResync`.
-/

namespace Sys2Proof.Machine

/-- PIN_RESET (R1, R154): every block takes its pin-reset values, the straps are read, and RAM
initialisation starts; table RAM keeps its content until initialisation has ended (R55). -/
def execPinReset (straps : Fin 8) (s : State) : Host.Outcome State Fault Refusal :=
  .next (State.initial straps s.directory.ram s.pending)

/-- The install that a walk being abandoned may have sent (R82): the one its next hit asks for. -/
def Job.sentInstall (j : Job) : Option Install :=
  match j.walk? with
  | some w =>
    match w.phase with
    | .making (h :: _) _ => h.install? w.tag
    | .making [] _ | .read => none
  | none => none

/-- The scrubs that the walk in flight holds (R50). -/
def Job.scrubs (j : Job) : List Place := (j.walk?.map fun w => w.reading.scrubs).getD []

/-- The walker's part of soft reset that is done at once (R82): its queue is emptied, the event in hand
is dropped, and a walk in flight is abandoned, the table port being released with its held scrubs. -/
def State.abandonWalk (s : State) : State :=
  let job := s.walker.job
  let s := s.setDirectory { s.directory with
    ram := job.scrubs.foldl TableRam.scrub s.directory.ram, turn := .either }
  let s := s.setXps { s.xps with abandoned := job.sentInstall }
  s.setWalker { s.walker with queue := [], job := .idle }

/-- The requests of a soft reset that are handed over at its start (R174): the crosspoint set's and the
station ports'. The walker's and the cue engine's follow the crosspoint set's. -/
def resetRequests : List Request := .removeKeysAndCues :: (List.finRange 16).map .portResync

/-- SOFT_RESET (R174): the commands behind the head are discarded, and the blocks are reset. -/
def softReset (_ps : List Byte) (s : State) : State :=
  let m := s.management
  let s := s.setManagement { m with
    commands := m.commands.take 1, execution := .softReset (m.commands.length - 1) }
  resetRequests.foldl State.hand s.abandonWalk

/-- SOFT_RESET (R174): begins a soft reset; its reply is placed when the blocks have taken their
requests. -/
def execSoftReset (s : State) : Host.Outcome State Fault Refusal := .next (s.begin 0x02 softReset)

end Sys2Proof.Machine
end

