-- ==== Sys2Proof/WellFormed.lean ====
section
/-!
DEFINITION. Which commands are well formed: an operand that stands for the bytes of a line has the
length of that line's frame (chapter 12), and a command that reads table RAM names each place at most
once among the errors its reads find. Everything else is bounded by the operand types.
-/

namespace Sys2Proof

/-- A trunk frame is 118 bytes (12.1). -/
def trunkFrameLength : Nat := 118

/-- An uplink frame is six bytes (12.2). -/
def uplinkFrameLength : Nat := 6

/-- No place is named twice. -/
def Upsets.wellFormed (u : Upsets) : Bool := decide (u.map Prod.fst).Nodup

/-- A report whose frame has the length of an uplink frame. -/
def UplinkReport.wellFormed : UplinkReport → Bool
  | .frame bytes => bytes.length == uplinkFrameLength
  | .missing => true

/-- The operands of a command are such as its line or its reads can bring. -/
def Instr.wellFormed : Instr → Bool
  | .trunkArrival bytes => bytes.length == trunkFrameLength
  | .linkReport _ report => report.wellFormed
  | .walkStart upsets => upsets.wellFormed
  | .readRecord upsets => upsets.wellFormed
  | .tablePortGrant upsets => upsets.wellFormed
  | .pinReset _ | .ramInitialisationEnd | .frameStart | .missingFrame | .statePost _ | .keyEventTake
  | .walkEnd | .busyLampRequest _ _ | .crosspointInstall | .removeKey _ _ | .removePortKeys _
  | .removeCircuit _ | .removeKeysAndCues | .portRowReset _ | .lostMarkSet _ | .lostMarkClear _
  | .standbyRequest _ _ | .goRequest _ _ | .cancelRequest _ _ | .answer _ _ | .standbyTimerExpiry _
  | .goHoldExpiry _ | .goNext _ | .standbyNext _ | .back _ | .skip _ | .unknownCommand | .identify
  | .softReset | .walkerReset | .circuitAbort | .portResync _ | .portSetup | .portStatus | .laneMap
  | .slotEnable | .slotRetire | .installCrosspoint | .removeCrosspoint | .setGain | .readSlot
  | .directorySetup | .writeRecords | .selectScene | .recordWrite | .loadTimerExpiry | .retryKey
  | .circuitSetup | .readCircuit | .cueStandby | .cueGo | .cueCancel | .cueNext | .cueListWrite
  | .cueListTruncate | .cueCursor | .readCueList | .readLastCue | .readFaults | .clearFaults
  | .lockShow | .unlockShow | .freezeShow | .faultReport _ _ => true

end Sys2Proof
end

