-- ==== Sys2Proof/Machine/Frames.lean ====
section
/-!
DEFINITION. The frames on the wires (chapter 12): the trunk frame with its CRC, the station frames, and
the management cells. Reading a frame judges its check; building one computes it over the bytes sent.
-/

namespace Sys2Proof.Machine

/-! ### The trunk CRC (R191) -/

/-- One bit of the CRC: generator x^16 + x^12 + x^5 + 1. -/
def crcBit (x : BitVec 16) : BitVec 16 := if x.msb then (x <<< 1) ^^^ 0x1021 else x <<< 1

/-- One byte of the CRC, most significant bit first. -/
def crcByte (x : BitVec 16) (b : Byte) : BitVec 16 :=
  crcBit <| crcBit <| crcBit <| crcBit <| crcBit <| crcBit <| crcBit <| crcBit <| x ^^^ (b ++ (0 : Byte))

/-- The trunk CRC-16: it starts from 0xFFFF and is not inverted at the end. -/
def crc16 (bytes : List Byte) : BitVec 16 := bytes.foldl crcByte 0xFFFF

/-! ### The trunk frame (12.1) -/

/-- The fields of a trunk frame that its judgement leaves to be read. -/
structure TrunkFrame where
  number : Byte
  upstreamLost : Bool
  lanes : Vector Sample 48
  cell : List Byte
  deriving DecidableEq, Repr

/-- How one arrival on TRUNK_IN is judged (R143): no sync word, a bad frame, or a good frame. -/
inductive Arrival where
  | noSync
  | bad (f : TrunkFrame)
  | good (f : TrunkFrame)
  deriving DecidableEq, Repr

/-- The fields of the bytes of a trunk frame. -/
def TrunkFrame.read (bytes : List Byte) : TrunkFrame where
  number := byteAt bytes 2
  upstreamLost := (byteAt bytes 3).getLsbD 0
  lanes := Vector.ofFn fun n => wordAt bytes (4 + 2 * n.val)
  cell := (bytes.drop 100).take 16

/-- Judge the bytes of one frame period (R143). -/
def Arrival.judge (bytes : List Byte) : Arrival :=
  if bytes.take 2 = [0xE2, 0x5B] then
    if bytes.length = trunkFrameLength ∧ wordAt bytes 116 = crc16 (bytes.take 116) then
      .good (.read bytes)
    else .bad (.read bytes)
  else .noSync

/-- The bytes of a trunk frame before its check. -/
def TrunkFrame.body (f : TrunkFrame) : List Byte :=
  [0xE2, 0x5B, f.number, byte (bit f.upstreamLost)] ++ (f.lanes.toList.map bytesOf16).flatten ++ f.cell

/-- The bytes of an outgoing trunk frame, its check good or marked bad (R149, R191). -/
def TrunkFrame.write (f : TrunkFrame) (markedBad : Bool) : List Byte :=
  let crc := crc16 f.body
  f.body ++ bytesOf16 (if markedBad then ~~~crc else crc)

/-! ### Management cells (12.4) -/

/-- The cell kinds that the trunk port tells apart (R152). -/
inductive CellKind where
  | idle | command | data | other
  deriving DecidableEq, Repr

/-- The kind of a cell: REPLY, NOTICE and every other value are passed on alike. -/
def cellKind (cell : List Byte) : CellKind :=
  match (byteAt cell 0).toNat with
  | 0 => .idle
  | 1 => .command
  | 2 => .data
  | _ => .other

/-- The address of a cell. -/
def cellAddress (cell : List Byte) : Nat := (byteAt cell 1).toNat

/-- The command that a COMMAND cell carries; a DATA cell is read the same way. -/
def Command.ofCell (cell : List Byte) : Command :=
  ⟨byteAt cell 2, byteAt cell 3, parameters ((cell.drop 4).take 10)⟩

/-- An IDLE cell: sixteen bytes of 0. -/
def idleCell : List Byte := List.replicate 16 0

/-- A cell that this chip sends (R158, 12.4). -/
def buildCell (kind : Byte) (position : Fin 8) (tag code : Byte) (params : List Byte) (credit : Nat) :
    List Byte :=
  withSumCheck ([kind, byte position.val, tag, code] ++ params ++ [byte credit])

/-- The cell of a reply: bits 6 to 0 of the code are the status, bit 7 is CLAMPED. -/
def Reply.cell (r : Reply) (position : Fin 8) (credit : Nat) : List Byte :=
  buildCell 3 position r.tag (byte (r.status.code + 128 * bit r.clamped)) r.params credit

/-- The cell of a notice: its tag is its sequence number and its code its kind. -/
def Notice.cell (n : Notice) (position : Fin 8) (credit : Nat) : List Byte :=
  buildCell 4 position n.seq (byte n.body.code) n.body.params credit

/-! ### Station frames (12.2) -/

/-- The fields of a good uplink frame. -/
structure Uplink where
  sample : Sample
  keys : BitVec 7
  message : Byte
  start : Bool
  deriving DecidableEq, Repr

/-- Judge a report of the link receiver (R128, R191): a good frame with its fields, or `none` for a frame
whose check does not agree. -/
def Uplink.read (bytes : List Byte) : Option Uplink :=
  if bytes.length = uplinkFrameLength ∧ sumGood bytes then
    some ⟨wordAt bytes 0, (byteAt bytes 2).extractLsb' 0 7, byteAt bytes 3, (byteAt bytes 4).getLsbD 0⟩
  else none

/-- The fields of a downlink frame, lamps by their codes. -/
structure Downlink where
  sample : Sample
  keyLamps : List Nat
  callLamp : Nat
  cueLampA : Nat
  cueLampB : Nat
  message : Option (Byte × Bool)
  group : Fin 3
  deskLamps : List Nat
  deriving DecidableEq, Repr

/-- Codes side by side in fields of a number of bits, the first code lowest. -/
def packed (bits : Nat) : List Nat → Nat
  | [] => 0
  | x :: rest => x + 2 ^ bits * packed bits rest

/-- The ten bytes of a downlink frame. -/
def Downlink.write (d : Downlink) : List Byte :=
  let message : Byte × Nat :=
    match d.message with
    | some (b, start) => (b, 2 + bit start)
    | none => (0, 0)
  withSumCheck (bytesOf16 d.sample
    ++ [byte (packed 2 d.keyLamps), byte (d.callLamp + 8 * d.cueLampA + 32 * d.cueLampB), message.1,
      byte (message.2 + 16 * d.group.val)]
    ++ bytesOf24 (BitVec.ofNat 24 (packed 3 d.deskLamps)))

end Sys2Proof.Machine
end

