-- ==== Sys2Proof/Machine/Management.lean ====
section
/-!
DEFINITION. The management engine (chapters 9 and 10): taking cells from the trunk port, loads, the
show lock, and the command that is no command.
-/

namespace Sys2Proof.Machine

/-! ### Cells handed over (R157) -/

/-- A COMMAND cell at admission (R159). -/
def State.admitCommand (c : Command) (s : State) : State :=
  let m := s.management
  if m.commands.length < Config.commandCapacity then
    s.setManagement { m with commands := m.commands ++ [c] }
  else s.reply ⟨c.tag, .full, false, parameters [c.code]⟩

/-- A DATA cell (R167, R170): taken into an open load that expects a record, otherwise answered NO_LOAD. -/
def State.data (c : Command) (s : State) : State :=
  let refused := s.reply ⟨c.tag, .noLoad, false, parameters []⟩
  match s.management.execution with
  | .load l =>
    if l.expected = 0 then refused
    else s.execute (.load { l with
      expected := l.expected - 1
      waiting := l.waiting ++ [Record.decode c.params]
      deadline := .after s.clock Config.loadTimeout })
  | .none | .access _ | .softReset _ => refused

/-- The management engine takes a cell that the trunk port hands over (R157). -/
def State.handCell (cell : List Byte) (s : State) : State :=
  match cellKind cell with
  | .command => s.admitCommand (.ofCell cell)
  | .data => s.data (.ofCell cell)
  | .idle | .other => s

/-! ### Loads (9.5) -/

/-- The reply of a load at its close (R168): remaining count and stop index; CLAMPED goes with DONE. -/
def Load.answer (l : Load) (status : Status) : Answer :=
  ⟨status, l.clamped && status == .done, byte (l.count - l.written) :: bytes16 (l.start + l.written)⟩

/-- The load closes: its waiting records are discarded and its reply is placed (R168). -/
def State.closeLoad (l : Load) (status : Status) (s : State) : State := s.answer (l.answer status)

/-- WRITE_RECORDS (R166). -/
def writeRecords (ps : List Byte) (s : State) : State :=
  let start := (wordAt ps 0).toNat
  let count := (byteAt ps 2).toNat
  if start > 1023 ∨ count = 0 ∨ count > 64 ∨ start + count > 1024 then s.answer (.bare .badParam)
  else s.execute (.load ⟨start, count, count, 0, [], false, .after s.clock Config.loadTimeout⟩)

/-- WRITE_RECORDS (R166): opens a load, which stays at the head until it closes. -/
def execWriteRecords (s : State) : Host.Outcome State Fault Refusal := .next (s.begin 0x31 writeRecords)

/-- The oldest waiting record of a load is granted the table port (R44, R167). -/
def State.writeRecord (l : Load) (r : Record) (rest : List Record) (s : State) : State :=
  if r.valid && !r.accepted s.directory.region.span then s.closeLoad l .badRecord
  else
    let ram := s.directory.ram.write (l.start + l.written) ⟨r.stored, .clean, false⟩
    let s := s.setDirectory { s.directory with ram := ram }
    let l' := { l with written := l.written + 1, waiting := rest, clamped := l.clamped || r.overGain }
    if l'.written = l'.count then s.closeLoad l' .done else s.execute (.load l')

/-- RECORD_WRITE (R44): one waiting record of the open load is written, or rejected. -/
def execRecordWrite (s : State) : Host.Outcome State Fault Refusal :=
  .next <|
    match s.management.execution with
    | .load l =>
      match l.waiting with
      | r :: rest => if s.accessGranted then (s.writeRecord l r rest).accessEnded else s
      | [] => s
    | .none | .access _ | .softReset _ => s

/-- LOAD_TIMER_EXPIRY (R169): a load that expects a record when its deadline is reached closes with
TIMEOUT. -/
def execLoadTimerExpiry (s : State) : Host.Outcome State Fault Refusal :=
  .next <|
    match s.management.execution with
    | .load l =>
      if l.deadline.reached ∧ l.expected ≠ 0 then
        (s.closeLoad l .timeout).report .loadTimeout .nowhere
      else s
    | .none | .access _ | .softReset _ => s

/-! ### Commands -/

/-- UNKNOWN_COMMAND (R161): the command at the head has a code outside the catalogue. -/
def execUnknownCommand (s : State) : Host.Outcome State Fault Refusal :=
  .next <|
    match s.management.commands with
    | [] => s
    | c :: _ =>
      if s.mayBegin ∧ ¬ catalogue.contains c.code.toNat then s.answer (.bare .unknown) else s

/-- A lock command that is not refused (R176): it sets the lock and answers the state before and after. -/
def setLock (next : LockState → LockState) (_ps : List Byte) (s : State) : State :=
  let before := s.management.lock
  (s.setManagement { s.management with lock := next before }).answer
    (.ok [byte before.code, byte (next before).code])

/-- LOCK_SHOW (R176). -/
def execLockShow (s : State) : Host.Outcome State Fault Refusal :=
  .next (s.begin 0x60 (setLock fun _ => .locked))

/-- UNLOCK_SHOW (R176). -/
def execUnlockShow (s : State) : Host.Outcome State Fault Refusal :=
  .next (s.begin 0x61 (setLock fun _ => .unlocked))

/-- FREEZE_SHOW (R176). -/
def execFreezeShow (s : State) : Host.Outcome State Fault Refusal :=
  .next (s.begin 0x62 (setLock fun _ => .frozen))

end Sys2Proof.Machine
end

