-- ==== Sys2Proof/Machine/Mix.lean ====
section
/-!
DEFINITION. The mix (chapter 2): what one frame start computes from the LIVE slots, the microphone
samples taken, the lanes presented and the port settings. Everything is exact integer arithmetic;
saturation stands where the rules put it.
-/

namespace Sys2Proof.Machine

/-! ### Arithmetic (00_scope 2.2) -/

/-- Scaling by a Q8 value: floor((x × g + 128) / 256). -/
def scale (x : Int) (g : Nat) : Int := (x * g + 128) / 256

/-- Saturation to −32768..32767. -/
def sat (x : Int) : Int := max (-32768) (min 32767 x)

/-- The value lies outside −32768..32767. -/
def clips (x : Int) : Bool := decide (x < -32768) || decide (32767 < x)

/-- A value in the sample range as a sample. -/
def toSample (x : Int) : Sample := BitVec.ofInt 16 x

/-- A count that stops at 65535. -/
def countUp (n gained : Nat) : Nat := min (n + gained) Config.counterTop

/-! ### Inputs (2.2) -/

/-- What one frame's mix reads: the LIVE connections, the gated microphone value of each port (R24), the
lane values (R25), and the ports with their settings. -/
structure MixInput where
  conns : List Connection
  mics : Vector Int 16
  lanes : Vector Int 48
  ports : Vector StationPort 16

/-- The raw microphone value of a port whose sample for this frame has been taken (R23). -/
def StationPort.raw (x : StationPort) : Int :=
  match x.kind with
  | .beltpack | .panel | .desk => if x.link = .up then x.lastHanded.toInt else 0
  | .unused | .cueBox => 0

/-- The input gate (R24). -/
def gated (r : Int) (gate : Nat) : Int := if r.natAbs ≤ gate then 0 else r

/-- The inputs of the frame, the samples of the UP ports having been taken. -/
def State.mixInput (s : State) : MixInput where
  conns := s.xps.connections
  mics := each s.ports fun _ x => gated x.raw x.gate
  lanes := each s.trunk.presented fun _ v => if s.trunk.sync = .locked then v.toInt else 0
  ports := s.ports

/-! ### Contributions and channels (2.3, 2.4) -/

/-- The value of a PORT or LANE source. A channel has no value of its own. -/
def MixInput.direct (m : MixInput) : Endpoint → Int
  | .port p => m.mics[p]
  | .lane n => m.lanes[n]
  | .channel _ => 0

/-- The sum of the contributions of the PORT and LANE sources that satisfy a test (R26, R27). -/
def MixInput.sumDirect (m : MixInput) (test : Connection → Bool) : Int :=
  ((m.conns.filter test).map fun x => scale (m.direct x.source) x.gain).sum

/-- The source is a port. -/
def Connection.fromPort (x : Connection) : Bool := x.source.isPort

/-- The source is a lane. -/
def Connection.fromLane (x : Connection) : Bool :=
  match x.source with
  | .lane _ => true
  | .port _ | .channel _ => false

/-- Local_c (R27). -/
def MixInput.localSum (m : MixInput) (c : Channel) : Int :=
  m.sumDirect fun x => x.dest == .channel c && x.fromPort

/-- Remote_c (R27). -/
def MixInput.remoteSum (m : MixInput) (c : Channel) : Int :=
  m.sumDirect fun x => x.dest == .channel c && x.fromLane

/-- Own_{c,p} (R27). -/
def MixInput.ownSum (m : MixInput) (c : Channel) (p : Port) : Int :=
  m.sumDirect fun x => x.dest == .channel c && x.source == .port p

/-- The value of channel `c` towards a destination, before saturation (R28, R29). A channel is never a
destination of a channel (R3). -/
def MixInput.channelValue (m : MixInput) (c : Channel) : Endpoint → Int
  | .port p => m.localSum c - m.ownSum c p + m.remoteSum c
  | .lane _ => m.localSum c
  | .channel _ => 0

/-- The contribution of a LIVE slot (R26, R28, R29). -/
def MixInput.contribution (m : MixInput) (x : Connection) : Int :=
  match x.source with
  | .port _ | .lane _ => scale (m.direct x.source) x.gain
  | .channel c => scale (sat (m.channelValue c x.dest)) x.gain

/-! ### Port outputs (2.5) -/

/-- What a slot adds to port `p`: PROGRAM is scaled by the duck depth while the port is ducked (R31). -/
def MixInput.toPort (m : MixInput) (p : Port) (x : Connection) : Int :=
  if x.cls = .program ∧ ducked m.conns p then scale (m.contribution x) m.ports[p].duck
  else m.contribution x

/-- The sidetone term (R32). -/
def MixInput.sidetone (m : MixInput) (p : Port) : Int :=
  if m.ports[p].link = .up ∧ m.ports[p].kind ≠ .cueBox then scale m.mics[p] m.ports[p].sidetone else 0

/-- S_L (R33 step 1). -/
def MixInput.portSum (m : MixInput) (p : Port) : Int :=
  ((m.conns.filter fun x => x.dest == .port p).map (m.toPort p)).sum + m.sidetone p

/-- o, the sum after the master level (R33 step 2). -/
def MixInput.portOutput (m : MixInput) (p : Port) : Int := scale (m.portSum p) m.ports[p].master

/-- The output floor (R33 step 4). -/
def floored (x : Int) (floor : Nat) : Int := if x.natAbs ≤ floor then 0 else x

/-- The headset sample of port `p` (R33). -/
def MixInput.headset (m : MixInput) (p : Port) : Sample :=
  toSample (floored (sat (m.portOutput p)) m.ports[p].floor)

/-! ### Lane outputs and clip counters (2.6, 2.8) -/

/-- The output sample of lane `n` (R34). -/
def MixInput.laneOutput (m : MixInput) (n : Lane) : Sample :=
  toSample (sat ((m.conns.filter fun x => x.dest == .lane n).map m.contribution).sum)

/-- The counts that channel `c` gains in this frame (R36). -/
def MixInput.channelClips (m : MixInput) (c : Channel) : Nat :=
  m.conns.countP fun x => x.source == .channel c && clips (m.channelValue c x.dest)

/-- The clip counters after this frame (R36). -/
def MixEngine.count (e : MixEngine) (m : MixInput) : MixEngine where
  portClips := each e.portClips fun p n => countUp n (bit (clips (m.portOutput p)))
  channelClips := each e.channelClips fun c n => countUp n (m.channelClips c)

end Sys2Proof.Machine
end

