-- ==== Sys2Proof/Machine/Station.lean ====
section
/-!
DEFINITION. The station ports (chapter 7): link reports, port drop, the uplink FIFO, key edges, desk
messages, the resync of a soft reset, and the commands that set up and read ports.
-/

namespace Sys2Proof.Machine

/-! ### Drop and FIFO -/

/-- The record of a port after its drop (R130). -/
def StationPort.dropped (x : StationPort) : StationPort :=
  { x with
    link := .down
    goodRun := 0
    badRun := 0
    fifo := []
    lastGood := 0
    lastHanded := 0
    resync := false
    assembler := []
    replies := [] }

/-- The result of a desk request of port `p` is wanted no more (R130). -/
def Request.discardFor (p : Port) : Request → Request
  | .desk q seq wanted r => .desk q seq (wanted && p != q) r
  | r => r

/-- Port `p` drops (R130): its record is set, the results of its desk requests in transit are to be discarded,
the drop is handed to the crosspoint set, to the cue engine and to the fault log, and a walk of the port in flight
that has not decided is to be suppressed (R71, R131); the walker's row reset follows the crosspoint set's removal. -/
def State.dropPort (p : Port) (s : State) : State :=
  let s := (s.setPort p s.ports[p].dropped).setRequests (s.requests.map (Request.discardFor p))
  (((s.hand (.removePortKeys p)).hand (.lostMark p true)).report .portLost (.port p)).suppress (·.ofPort p)

/-- A slip (R133). -/
def StationPort.slip (x : StationPort) : StationPort :=
  { x with slips := min (x.slips + 1) Config.counterTop }

/-- Put a sample into the uplink FIFO (R133): a full FIFO drops its oldest sample, with a slip. -/
def StationPort.push (x : StationPort) (v : Sample) : StationPort :=
  if x.fifo.length < Config.fifoCapacity then { x with fifo := x.fifo ++ [v] }
  else { x with fifo := x.fifo.tail ++ [v] }.slip

/-- The mix engine takes a sample of an UP port (R133): the oldest, or the last handed again with a slip. -/
def StationPort.takeSample (x : StationPort) : StationPort :=
  if x.link = .up then
    match x.fifo with
    | v :: rest => { x with fifo := rest, lastHanded := v }
    | [] => x.slip
  else x

/-! ### Keys (R134, R59) -/

/-- Offer a PRESS or RELEASE of port `p` to the key event queue (R59). -/
def State.offerKey (p : Port) (e : KeyEvent) (s : State) : State :=
  if s.walker.queue.length < Config.keyOfferLimit then s.enqueue e
  else (s.setPort p { s.ports[p] with resync := true }).report .keyOverrun (.port p)

/-- The edge of a talk or CALL key (R134): offered only while the resync flag is clear. -/
def State.talkEdge (p : Port) (before after : BitVec 7) (s : State) (k : Key) : State :=
  let was := before.getLsbD k.val
  let is := after.getLsbD k.val
  if was = is ∨ s.ports[p].resync then s
  else s.offerKey p (if is then .press p k s.clock else .release p k s.clock)

/-- The edge of an answer key (R134, R135): going down it is an answer. -/
def State.answerEdge (p : Port) (l : CrewLamp) (was is : Bool) (s : State) : State :=
  if !was && is then s.hand (.answer p l) else s

/-- The edges of one frame, in key order, the bitmap having been stored (R134). -/
def State.edges (p : Port) (before after : BitVec 7) (s : State) : State :=
  let s := (List.finRange 5).foldl (State.talkEdge p before after) s
  let s := s.answerEdge p .a (before.getLsbD 5) (after.getLsbD 5)
  s.answerEdge p .b (before.getLsbD 6) (after.getLsbD 6)

/-! ### Desk messages (R136, R137) -/

/-- What the desk assembler makes of one byte (R136): the bytes it then holds, and a completed message. -/
def assemble (held : List Byte) (b : Byte) (start : Bool) : List Byte × Option (List Byte) :=
  if start then ([b], none)
  else
    match held with
    | [] => ([], none)
    | _ :: _ => if held.length < 3 then (held ++ [b], none) else ([], some (held ++ [b]))

/-- A completed desk message (R136, R137): discarded on a bad check, answered at once where it reaches no
block, and otherwise handed on. -/
def State.deskMessage (p : Port) (bytes : List Byte) (s : State) : State :=
  if sumGood bytes then
    let seq := byteAt bytes 2
    match DeskRequest.decode (byteAt bytes 0).toNat (byteAt bytes 1).toNat with
    | .ok r => s.hand (.desk p seq true r)
    | .error status => s.deskReply p seq status
  else s

/-- The message byte of a good frame of an UP port (R136): only a DESK assembles it. -/
def State.deskByte (p : Port) (u : Uplink) (s : State) : State :=
  let x := s.ports[p]
  if x.kind = .desk then
    let r := assemble x.assembler u.message u.start
    let s := s.setPort p { x with assembler := r.1 }
    match r.2 with
    | some bytes => s.deskMessage p bytes
    | none => s
  else s

/-! ### Link reports (R128) -/

/-- What an UP port takes of a good frame besides its keys (R132). -/
def StationPort.takeFrame (x : StationPort) (u : Uplink) : StationPort :=
  { x with lastGood := u.sample, keys := u.keys }.push u.sample

/-- A good frame (R128, R129, R132, R134). -/
def State.goodFrame (p : Port) (u : Uplink) (s : State) : State :=
  let x := s.ports[p]
  match x.link with
  | .down => s.setPort p { x with link := .training, goodRun := 1, badRun := 0, keys := u.keys }
  | .training =>
    let x := { x with goodRun := min (x.goodRun + 1) Config.goodRunUp, badRun := 0 }
    if x.goodRun < Config.goodRunUp then s.setPort p { x with keys := u.keys }
    else
      ((s.setPort p ({ x with link := .up, resync := true }.takeFrame u)).hand
        (.lostMark p false)).deskByte p u
  | .up =>
    let s := s.setPort p
      ({ x with goodRun := min (x.goodRun + 1) Config.goodRunUp, badRun := 0 }.takeFrame u)
    (s.edges p x.keys u.keys).deskByte p u

/-- A bad or missing frame (R128, R132): `held` tells whether a sample stands in for it, as it does for a
bad frame and not for a missing one. -/
def State.lostFrame (p : Port) (held : Bool) (s : State) : State :=
  let x := s.ports[p]
  match x.link with
  | .down => s.setPort p { x with goodRun := 0, badRun := 0 }
  | .training =>
    if x.badRun + 1 < Config.badRunDown then
      s.setPort p { x with goodRun := 0, badRun := x.badRun + 1 }
    else s.setPort p { x with link := .down, goodRun := 0, badRun := 0, assembler := [] }
  | .up =>
    if x.badRun + 1 < Config.badRunDown then
      let y := { x with goodRun := 0, badRun := x.badRun + 1, assembler := [] }
      s.setPort p (if held then y.push (if y.badRun ≤ 2 then y.lastGood else 0) else y)
    else s.dropPort p

/-- LINK_REPORT (R128): the link receiver of a port whose kind is not UNUSED reports one uplink frame
period. -/
def execLinkReport (p : Port) (report : UplinkReport) (s : State) : Host.Outcome State Fault Refusal :=
  .next <|
    if s.ports[p].kind = .unused then s
    else
      match report with
      | .missing => s.lostFrame p false
      | .frame bytes =>
        match Uplink.read bytes with
        | some u => s.goodFrame p u
        | none => s.lostFrame p true

/-- PORT_RESYNC (R142): at soft reset a port that is UP sets its resync flag. -/
def execPortResync (p : Port) (s : State) : Host.Outcome State Fault Refusal :=
  .next <| s.take (.portResync p) fun s =>
    State.resetTaken (if s.isUp p then s.setPort p { s.ports[p] with resync := true } else s)

/-! ### Commands (7.7) -/

/-- The five settings of PORT SETUP as given (R140): gate, floor, master, sidetone, duck depth. -/
structure PortSettings where
  gate : Nat
  floor : Nat
  master : Nat
  sidetone : Nat
  duck : Nat
  deriving DecidableEq, Repr

/-- The settings in the parameters of PORT SETUP (12.6). -/
def PortSettings.read (ps : List Byte) : PortSettings :=
  ⟨(wordAt ps 1).toNat, (byteAt ps 3).toNat, (wordAt ps 4).toNat, (wordAt ps 6).toNat,
    (wordAt ps 8).toNat⟩

/-- The settings brought into their ranges (R140). -/
def PortSettings.clamped (x : PortSettings) : PortSettings :=
  ⟨min x.gate 1023, min x.floor 255, min x.master 256, min x.sidetone 256, min x.duck 256⟩

/-- Store settings in a port. -/
def StationPort.set (x : StationPort) (v : PortSettings) : StationPort :=
  { x with gate := v.gate, floor := v.floor, master := v.master, sidetone := v.sidetone, duck := v.duck }

/-- Port `p` goes to DOWN before its kind changes (R140). -/
def State.goDown (p : Port) (s : State) : State :=
  match s.ports[p].link with
  | .up => s.dropPort p
  | .training => s.setPort p { s.ports[p] with link := .down, goodRun := 0, badRun := 0, assembler := [] }
  | .down => s

/-- PORT_SETUP (R140). -/
def portSetup (ps : List Byte) (s : State) : State :=
  match index? 16 ((byteAt ps 0).extractLsb' 0 4).toNat,
      PortKind.decode ((byteAt ps 0).extractLsb' 4 4).toNat with
  | some p, some kind =>
    let given := PortSettings.read ps
    let s := if kind = s.ports[p].kind then s else s.goDown p
    let x := { s.ports[p] with kind := kind }.set given.clamped
    (s.setPort p x).answer ⟨.done, decide (given ≠ given.clamped), [byte x.link.code]⟩
  | _, _ => s.answer (.bare .badParam)

/-- PORT_SETUP (R140): replaces the kind and the five settings of one port. -/
def execPortSetup (s : State) : Host.Outcome State Fault Refusal := .next (s.begin 0x10 portSetup)

/-- Part 0 of PORT STATUS (R173, 12.5). -/
def State.portPart0 (s : State) (p : Port) : List Byte :=
  let x := s.ports[p]
  [byte x.kind.code, byte x.link.code, byte x.goodRun, byte x.badRun, byte x.fifo.length,
    byte (bit x.resync)] ++ bytes16 x.slips ++ bytes16 s.mixer.portClips[p]

/-- Part 1 of PORT STATUS: the five settings. -/
def StationPort.part1 (x : StationPort) : List Byte :=
  bytes16 x.gate ++ [byte x.floor] ++ bytes16 x.master ++ bytes16 x.sidetone ++ bytes16 x.duck

/-- A key entry in one byte (12.5). -/
def KeyEntry.byte (e : KeyEntry) : Byte :=
  Machine.byte (e.state.code + 8 * e.mode.code + 32 * e.lamp.code + 128 * bit e.swallow)

/-- Part 2 of PORT STATUS: the five key entries and the call count. -/
def State.portPart2 (s : State) (p : Port) : List Byte :=
  s.walker.keys[p].toList.map KeyEntry.byte ++ bytes16 s.walker.calls[p]

/-- PORT_STATUS (R141, R173). -/
def portStatus (ps : List Byte) (s : State) : Answer :=
  match index? 16 (byteAt ps 0).toNat, (byteAt ps 1).toNat with
  | some p, 0 => .ok (s.portPart0 p)
  | some p, 1 => .ok s.ports[p].part1
  | some p, 2 => .ok (s.portPart2 p)
  | some _, 3 =>
    match index? 12 (byteAt ps 2).toNat with
    | some c => .ok (byte c.val :: bytes16 s.mixer.channelClips[c])
    | none => .bare .badParam
  | _, _ => .bare .badParam

/-- PORT_STATUS (R173): returns one part of a port's state. -/
def execPortStatus (s : State) : Host.Outcome State Fault Refusal := .next (s.beginRead 0x11 portStatus)

end Sys2Proof.Machine
end

