-- ==== Sys2Proof/Machine/Trunk.lean ====
section
/-!
DEFINITION. The trunk port (chapter 8): arrivals and frame sync, the frame start with everything that a
frame start brings (the show clock, the mix, the downlinks, the outgoing frame), and the commands
LANE_MAP and IDENTIFY.
-/

namespace Sys2Proof.Machine

/-! ### Arrivals (R143 to R146) -/

/-- A trunk reinit (R146): HUNT, LOCAL timing, last good samples 0, and every lane presents 0. -/
def TrunkPort.reinit (t : TrunkPort) : TrunkPort :=
  { t with
    sync := .hunt
    goodRun := 0
    badRun := 0
    timing := .localClock
    presented := Vector.replicate 48 0
    lastGood := Vector.replicate 48 0
    period := some .reinit }

/-- A bad or missing frame in LOCKED (R145, R146): held, or at the third the trunk reinit. -/
def State.loseFrame (held : Period) (s : State) : State :=
  let t := s.trunk
  if t.badRun + 1 < 3 then
    (s.setTrunk { t with badRun := t.badRun + 1, presented := t.lastGood, period := some held }).report
      .trunkCheck .nowhere
  else (s.setTrunk t.reinit).report .trunkSyncLoss .nowhere

/-- What R152 makes of the cell field of a frame that is taken. -/
inductive CellRead where
  | checkFailed
  | use (handed : Bool) (field : CellField)
  deriving DecidableEq, Repr

/-- Read a cell field (R152). -/
def readCell (position : Fin 8) (cell : List Byte) : CellRead :=
  if sumGood cell then
    match cellKind cell with
    | .idle => .use false .free
    | .command | .data =>
      if cellAddress cell = position.val then .use true .free
      else .use (cellAddress cell == 15) (.carry cell)
    | .other => .use false (.carry cell)
  else .checkFailed

/-- A good frame is taken in LOCKED (R144, R150, R152, R155). A FULL or NO_LOAD reply that its cell raises joins
the reply queue here, and so before the free field of this frame is filled, where R153 leaves open which is
first (DESIGN CHOICE, log 23). -/
def State.takeTrunkFrame (f : TrunkFrame) (s : State) : State :=
  let took (field : CellField) : State := s.setTrunk { s.trunk with
    badRun := 0
    presented := f.lanes
    lastGood := f.lanes
    upstreamLost := f.upstreamLost
    period := some (.taken f.number f.upstreamLost f.lanes field) }
  match readCell s.trunk.position f.cell with
  | .checkFailed => (took .free).report .cellCheck .nowhere
  | .use true field => (took field).handCell f.cell
  | .use false field => took field

/-- A good frame in VERIFY (R144): the fourth makes the port LOCKED under TRUNK timing (R147). -/
def TrunkPort.verified (t : TrunkPort) : TrunkPort :=
  if t.goodRun + 1 < 4 then { t with goodRun := t.goodRun + 1 }
  else { t with goodRun := 4, sync := .locked, timing := .trunk }

/-- The port returns to HUNT from VERIFY (R144). -/
def TrunkPort.toHunt (t : TrunkPort) : TrunkPort := { t with sync := .hunt, goodRun := 0 }

/-- TRUNK_ARRIVAL (R144): the bytes of one frame period on TRUNK_IN. -/
def execTrunkArrival (bytes : List Byte) (s : State) : Host.Outcome State Fault Refusal :=
  .next <|
    match Arrival.judge bytes, s.trunk.sync with
    | .noSync, _ => s
    | .bad _, .hunt | .good _, .hunt => s.setTrunk { s.trunk with sync := .verify, goodRun := 0 }
    | .good _, .verify => s.setTrunk s.trunk.verified
    | .bad _, .verify => s.setTrunk s.trunk.toHunt
    | .good f, .locked => s.takeTrunkFrame f
    | .bad f, .locked => s.loseFrame (.heldBad f.number f.upstreamLost f.lanes)

/-- MISSING_FRAME (R143): a frame that is due does not begin; in HUNT none is due. -/
def execMissingFrame (s : State) : Host.Outcome State Fault Refusal :=
  .next <|
    match s.trunk.sync with
    | .hunt => s
    | .verify => s.setTrunk s.trunk.toHunt
    | .locked => s.loseFrame .heldMissing

/-! ### The frame start: clock and deadlines (R148) -/

/-- The deadlines of a circuit against the show clock. -/
def Circuit.tick (clock : Stamp) (c : Circuit) : Circuit :=
  { c with
    standbyDeadline := c.standbyDeadline.map (Deadline.tick clock)
    holdDeadline := c.holdDeadline.map (Deadline.tick clock) }

/-- The deadline of an open load against the show clock. -/
def Execution.tick (clock : Stamp) : Execution → Execution
  | .load l => .load { l with deadline := l.deadline.tick clock }
  | .none => .none
  | .access a => .access a
  | .softReset n => .softReset n

/-- The show clock gains one, and every deadline it then equals is reached (R148). -/
def State.tickClock (s : State) : State :=
  let clock := s.clock + 1
  ((s.setTrunk { s.trunk with clock := clock }).setCircuits
    (each s.circuits fun _ c => c.tick clock)).execute (s.management.execution.tick clock)

/-! ### The frame start: downlinks (R137 to R139) -/

/-- The next byte of the reply being sent, with its start flag (R137). -/
def nextByte : List (List Byte) → Option (Byte × Bool)
  | (b :: bs) :: _ => some (b, bs.length == 3)
  | _ => none

/-- The reply buffer once that byte is sent (R137). -/
def afterByte : List (List Byte) → List (List Byte)
  | [] => []
  | r :: rest => if r.length ≤ 1 then rest else r.tail :: rest

/-- The circuit of lamp `i` in a desk group (R139). -/
def deskCircuit (group : Fin 3) (i : Fin 8) : CircuitIx := ⟨8 * group.val + i.val, by omega⟩

/-- The desk lamps of a port in a group (R139): those of a DESK, and OFF for other kinds. -/
def State.deskField (s : State) (p : Port) : List Nat :=
  (List.finRange 8).map fun i =>
    if s.ports[p].kind = .desk then s.deskLamp (deskCircuit s.group i) else 0

/-- The downlink of port `p` (R138, R139), given the frame's mix. -/
def State.downlink (s : State) (m : MixInput) (p : Port) : Downlink :=
  if s.isUp p then
    { sample := m.headset p
      keyLamps := (List.finRange 4).map fun k => (s.entry p (k.castLE (by omega))).lamp.code
      callLamp := s.callLamp p
      cueLampA := s.crewLamp p .a
      cueLampB := s.crewLamp p .b
      message := nextByte s.ports[p].replies
      group := s.group
      deskLamps := s.deskField p }
  else
    { sample := 0, keyLamps := [], callLamp := 0, cueLampA := 0, cueLampB := 0, message := none,
      group := s.group, deskLamps := [] }

/-- The port once its downlink frame is built: an UNUSED port sends none (R127, R138). -/
def State.sendDownlink (s : State) (m : MixInput) (p : Port) : StationPort :=
  let x := s.ports[p]
  { x with
    txFrame := if x.kind = .unused then none else some (s.downlink m p).write
    replies := if x.link = .up then afterByte x.replies else x.replies }

/-! ### The frame start: the outgoing trunk frame (R149, R153) -/

/-- Fill a free cell field (R153): the head of the reply queue, else of the notice queue, else IDLE. -/
def State.fillCell (s : State) : List Byte × State :=
  let m := s.management
  match m.replies, m.notices with
  | r :: rest, _ =>
    (r.cell s.trunk.position m.credit, s.setManagement { m with replies := rest })
  | [], n :: rest =>
    (n.cell s.trunk.position m.credit, s.setManagement { m with notices := rest })
  | [], [] => (idleCell, s)

/-- The lanes of the outgoing frame: OWNED lanes carry this frame's sums, PASS lanes what is forwarded
(R149). -/
def State.outLanes (s : State) (m : MixInput) (pass : Vector Sample 48) : Vector Sample 48 :=
  each s.trunk.laneMap fun n u =>
    match u with
    | .owned => m.laneOutput n
    | .pass => pass[n]

/-- Send a frame: it leaves on TRUNK_OUT, and the frame number counter takes its number plus one
(R149). The arrival of the period is used up. -/
def State.sendFrame (f : TrunkFrame) (markedBad : Bool) (s : State) : State :=
  s.setTrunk { s.trunk with
    txFrame := some (f.write markedBad), frameNumber := f.number + 1, period := none }

/-- Build and send the frame of this period (R149). -/
def State.outgoing (m : MixInput) (s : State) : State :=
  let t := s.trunk
  let silent := Vector.replicate 48 (0 : Sample)
  match t.period with
  | some (.taken number lost lanes (.carry cell)) =>
    s.sendFrame ⟨number, lost, s.outLanes m lanes, cell⟩ false
  | some (.taken number lost lanes .free) =>
    s.fillCell.2.sendFrame ⟨number, lost, s.outLanes m lanes, s.fillCell.1⟩ false
  | some (.heldBad number lost lanes) =>
    s.sendFrame ⟨number, lost, s.outLanes m lanes, idleCell⟩ true
  | some .heldMissing | some .reinit =>
    s.sendFrame ⟨t.frameNumber, true, s.outLanes m silent, idleCell⟩ true
  | none => s.fillCell.2.sendFrame ⟨t.frameNumber, true, s.outLanes m silent, s.fillCell.1⟩ false

/-! ### The frame start whole (R22) -/

/-- The samples of the UP ports are taken and the clip counters count (R23, R33, R36). -/
def State.mix (s : State) : State :=
  let s := s.setPorts (each s.ports fun _ x => x.takeSample)
  s.setMixer (s.mixer.count s.mixInput)

/-- A downlink frame is built for each port, and the group counter steps (R138, R139). -/
def State.sendDownlinks (m : MixInput) (s : State) : State :=
  (s.setPorts (Vector.ofFn fun p => s.sendDownlink m p)).setGroup (s.group + 1)

/-- A frame start (R22). -/
def State.frameStart (s : State) : State :=
  let s := s.tickClock.mix
  let m := s.mixInput
  (s.sendDownlinks m).outgoing m

/-- The timing source gives a frame start (R147): under TRUNK timing each one belongs to an arrival. -/
def TrunkPort.frameDue (t : TrunkPort) : Bool := t.timing == .localClock || t.period.isSome

/-- FRAME_START (R22). -/
def execFrameStart (s : State) : Host.Outcome State Fault Refusal :=
  .next (if s.trunk.frameDue then s.frameStart else s)

/-! ### Commands -/

/-- The number of OWNED lanes. -/
def ownedCount (m : Vector LaneUse 48) : Nat := m.toList.countP fun u => u == .owned

/-- The lane map in P0 to P5 of LANE MAP (12.6). -/
def laneMapRead (ps : List Byte) : Vector LaneUse 48 :=
  Vector.ofFn fun n => if (byteAt ps (n.val / 8)).getLsbD (n.val % 8) then .owned else .pass

/-- LANE_MAP (R151). -/
def laneMap (ps : List Byte) (s : State) : State :=
  let map := laneMapRead ps
  (s.setTrunk { s.trunk with laneMap := map }).answer
    (.ok [byte (ownedCount s.trunk.laneMap), byte (ownedCount map)])

/-- LANE_MAP (R151): replaces all 48 lane map entries. -/
def execLaneMap (s : State) : Host.Outcome State Fault Refusal := .next (s.begin 0x12 laneMap)

/-- IDENTIFY (R172, R155, 12.5). -/
def identify (_ps : List Byte) (s : State) : Answer :=
  let t := s.trunk
  .ok (bytes16 Config.partCode
    ++ [byte Config.revision,
      byte (t.position.val + 8 * t.sync.code + 32 * t.timing.code + 64 * bit t.upstreamLost)]
    ++ bytesOf32 t.clock
    ++ [t.frameNumber, byte (s.directory.scene.val + 16 * s.management.lock.code)])

/-- IDENTIFY (R172): returns the identification and status of the chip. -/
def execIdentify (s : State) : Host.Outcome State Fault Refusal := .next (s.beginRead 0x01 identify)

end Sys2Proof.Machine
end

