-- ==== Sys2Proof/Machine/Dispatch.lean ====
section
/-!
DEFINITION. The meaning of every command: one arm for each constructor of `Instr`.
-/

namespace Sys2Proof.Machine

/-- The effect of a command on everything but the queue of waiting commands. -/
def exec (i : Instr) (s : State) : Host.Outcome State Fault Refusal :=
  match i with
  | .pinReset straps => Sys2Proof.Machine.execPinReset straps s
  | .ramInitialisationEnd => Sys2Proof.Machine.execRamInitialisationEnd s
  | .frameStart => Sys2Proof.Machine.execFrameStart s
  | .trunkArrival bytes => Sys2Proof.Machine.execTrunkArrival bytes s
  | .missingFrame => Sys2Proof.Machine.execMissingFrame s
  | .linkReport p report => Sys2Proof.Machine.execLinkReport p report s
  | .statePost p => Sys2Proof.Machine.execStatePost p s
  | .keyEventTake => Sys2Proof.Machine.execKeyEventTake s
  | .walkStart upsets => Sys2Proof.Machine.execWalkStart upsets s
  | .walkEnd => Sys2Proof.Machine.execWalkEnd s
  | .busyLampRequest p k => Sys2Proof.Machine.execBusyLampRequest p k s
  | .crosspointInstall => Sys2Proof.Machine.execCrosspointInstall s
  | .removeKey p k => Sys2Proof.Machine.execRemoveKey p k s
  | .removePortKeys p => Sys2Proof.Machine.execRemovePortKeys p s
  | .removeCircuit c => Sys2Proof.Machine.execRemoveCircuit c s
  | .removeKeysAndCues => Sys2Proof.Machine.execRemoveKeysAndCues s
  | .portRowReset p => Sys2Proof.Machine.execPortRowReset p s
  | .lostMarkSet p => Sys2Proof.Machine.execLostMarkSet p s
  | .lostMarkClear p => Sys2Proof.Machine.execLostMarkClear p s
  | .standbyRequest p c => Sys2Proof.Machine.execStandbyRequest p c s
  | .goRequest p c => Sys2Proof.Machine.execGoRequest p c s
  | .cancelRequest p c => Sys2Proof.Machine.execCancelRequest p c s
  | .answer p l => Sys2Proof.Machine.execAnswer p l s
  | .standbyTimerExpiry c => Sys2Proof.Machine.execStandbyTimerExpiry c s
  | .goHoldExpiry c => Sys2Proof.Machine.execGoHoldExpiry c s
  | .goNext p => Sys2Proof.Machine.execGoNext p s
  | .standbyNext p => Sys2Proof.Machine.execStandbyNext p s
  | .back p => Sys2Proof.Machine.execBack p s
  | .skip p => Sys2Proof.Machine.execSkip p s
  | .unknownCommand => Sys2Proof.Machine.execUnknownCommand s
  | .identify => Sys2Proof.Machine.execIdentify s
  | .softReset => Sys2Proof.Machine.execSoftReset s
  | .walkerReset => Sys2Proof.Machine.execWalkerReset s
  | .circuitAbort => Sys2Proof.Machine.execCircuitAbort s
  | .portResync p => Sys2Proof.Machine.execPortResync p s
  | .portSetup => Sys2Proof.Machine.execPortSetup s
  | .portStatus => Sys2Proof.Machine.execPortStatus s
  | .laneMap => Sys2Proof.Machine.execLaneMap s
  | .slotEnable => Sys2Proof.Machine.execSlotEnable s
  | .slotRetire => Sys2Proof.Machine.execSlotRetire s
  | .installCrosspoint => Sys2Proof.Machine.execInstallCrosspoint s
  | .removeCrosspoint => Sys2Proof.Machine.execRemoveCrosspoint s
  | .setGain => Sys2Proof.Machine.execSetGain s
  | .readSlot => Sys2Proof.Machine.execReadSlot s
  | .directorySetup => Sys2Proof.Machine.execDirectorySetup s
  | .writeRecords => Sys2Proof.Machine.execWriteRecords s
  | .readRecord upsets => Sys2Proof.Machine.execReadRecord upsets s
  | .selectScene => Sys2Proof.Machine.execSelectScene s
  | .tablePortGrant upsets => Sys2Proof.Machine.execTablePortGrant upsets s
  | .recordWrite => Sys2Proof.Machine.execRecordWrite s
  | .loadTimerExpiry => Sys2Proof.Machine.execLoadTimerExpiry s
  | .retryKey => Sys2Proof.Machine.execRetryKey s
  | .circuitSetup => Sys2Proof.Machine.execCircuitSetup s
  | .readCircuit => Sys2Proof.Machine.execReadCircuit s
  | .cueStandby => Sys2Proof.Machine.execCueStandby s
  | .cueGo => Sys2Proof.Machine.execCueGo s
  | .cueCancel => Sys2Proof.Machine.execCueCancel s
  | .cueNext => Sys2Proof.Machine.execCueNext s
  | .cueListWrite => Sys2Proof.Machine.execCueListWrite s
  | .cueListTruncate => Sys2Proof.Machine.execCueListTruncate s
  | .cueCursor => Sys2Proof.Machine.execCueCursor s
  | .readCueList => Sys2Proof.Machine.execReadCueList s
  | .readLastCue => Sys2Proof.Machine.execReadLastCue s
  | .readFaults => Sys2Proof.Machine.execReadFaults s
  | .clearFaults => Sys2Proof.Machine.execClearFaults s
  | .lockShow => Sys2Proof.Machine.execLockShow s
  | .unlockShow => Sys2Proof.Machine.execUnlockShow s
  | .freezeShow => Sys2Proof.Machine.execFreezeShow s
  | .faultReport kind loc => Sys2Proof.Machine.execFaultReport kind loc s

end Sys2Proof.Machine
end

