-- ==== Sys2Proof/Machine/Step.lean ====
section
/-!
DEFINITION. One step of the block: the command at the front of the queue is carried out. The block
fetches nothing; commands come from outside.
-/

namespace Sys2Proof.Machine

/-- One step: the command at the front of the queue is taken out and carried out. On an empty queue the
block idles (DESIGN CHOICE, log 1): time passes through FRAME_START alone. -/
def step (s : State) : Host.Outcome State Fault Refusal :=
  match s.pending with
  | [] => .next s
  | c :: rest => exec c (s.setPending rest)

/-- Put the command that a word spells at the front of the queue; no row of the table gives bits, so no
word spells one (log 2). -/
def State.withFetchWord (s : State) (nbits w : Nat) : State :=
  match decodeTableWord nbits w with
  | some c => s.setPending (c :: s.pending)
  | none => s

end Sys2Proof.Machine
end

