-- ==== Sys2Proof/Safety.lean ====
section
/-!
DEFINITION. What a sound state of the 2416 is: the bounds and the relations between fields that the
rules promise of every collection, block by block. Each predicate stands alone, so that a claim can say
that every step keeps it without naming the others.
-/

namespace Sys2Proof.Machine

/-! ### Crosspoint set (R3 to R6) -/

/-- The connection of a LIVE slot obeys R3 to R5: it is not channel to channel, it has one to four
owners, no owner twice, and the pinned flag is that of its owners. -/
def Connection.sound (c : Connection) : Prop :=
  ¬ (c.source.isChannel ∧ c.dest.isChannel) ∧ 1 ≤ c.owners.length
    ∧ c.owners.length ≤ Config.ownerLimit ∧ c.owners.Pairwise (fun a b => a.same b = false)
    ∧ c.pinned = pinnedBy c.owners

/-- No two LIVE slots have the same source, destination and class (R4). -/
def CrosspointSet.distinct (x : CrosspointSet) : Prop :=
  ∀ (i j : SlotIx) (a b : Connection), x.slots[i] = .live a → x.slots[j] = .live b →
    a.source = b.source → a.dest = b.dest → a.cls = b.cls → i = j

/-- The crosspoint set is sound. -/
def CrosspointSet.sound (x : CrosspointSet) : Prop :=
  (∀ (i : SlotIx) (c : Connection), x.slots[i] = .live c → c.sound) ∧ x.distinct

/-! ### Queues (R58, R159, R160, R163, R164) -/

/-- The queues are within their capacities, reserved reply entries counted, and a command in execution
stands at the head of the command queue. -/
def State.queuesSound (s : State) : Prop :=
  s.walker.queue.length ≤ Config.keyQueueCapacity
    ∧ s.management.commands.length ≤ Config.commandCapacity
    ∧ s.management.repliesTaken ≤ Config.replyCapacity
    ∧ s.management.notices.length ≤ Config.noticeCapacity
    ∧ (s.management.execution ≠ .none → s.management.commands ≠ [])

/-! ### Fault log (R181, R187) -/

/-- At most eight records, no two of one kind and location, every repeat count from 1 to 255, and the
read position within the list. -/
def FaultLog.sound (l : FaultLog) : Prop :=
  l.records.length ≤ Config.faultCapacity
    ∧ l.records.Pairwise (fun a b => a.kind ≠ b.kind ∨ a.loc ≠ b.loc)
    ∧ (∀ r ∈ l.records, 1 ≤ r.count ∧ r.count ≤ Config.repeatTop)
    ∧ l.readPos ≤ l.records.length

/-! ### Cue list (R109) -/

/-- At most 128 entries, none with an empty circuit set, and the cursor within the list. -/
def CueList.sound (l : CueList) : Prop :=
  l.entries.length ≤ Config.cueListCapacity ∧ (∀ e ∈ l.entries, e.circuits ≠ 0)
    ∧ l.cursor ≤ l.entries.length

/-! ### Cue circuits (chapter 5) -/

/-- At most four members, no pair twice, at most eight outcomes; a circuit that is IDLE holds no cue
number, no deadline, no pending standby and no answer; a hold deadline stands exactly in GO; a standby
deadline stands only in STANDBY; a standby is pending only in GO. -/
def Circuit.sound (c : Circuit) : Prop :=
  c.members.length ≤ 4
    ∧ (c.members.map fun m => (m.port, m.lamp)).Nodup
    ∧ c.history.length ≤ Config.historyCapacity
    ∧ (c.state = .idle → c.cue = none ∧ c.late = false ∧ ∀ m ∈ c.members, m.answered = false)
    ∧ (c.holdDeadline.isSome ↔ c.state = .go)
    ∧ (c.standbyDeadline.isSome → c.state = .standby)
    ∧ (c.pending = true → c.state = .go)
    ∧ (c.pendingCue.isSome → c.pending = true)
    ∧ 1 ≤ c.hold

/-! ### Station ports (R126) -/

/-- The runs, the FIFO, the slip counter, the assembler, the reply buffer and the settings of a port are
within the ranges of R126 and 2.4; an UNUSED port is DOWN; a port that is not UP holds no sample, no
message and no reply. -/
def StationPort.sound (x : StationPort) : Prop :=
  x.goodRun ≤ Config.goodRunUp ∧ x.badRun < Config.badRunDown
    ∧ x.fifo.length ≤ Config.fifoCapacity ∧ x.slips ≤ Config.counterTop
    ∧ x.assembler.length ≤ 3 ∧ x.replies.length ≤ Config.deskReplyCapacity
    ∧ x.gate ≤ 1023 ∧ x.floor ≤ 255 ∧ x.master ≤ 256 ∧ x.sidetone ≤ 256 ∧ x.duck ≤ 256
    ∧ (x.kind = .unused → x.link = .down)
    ∧ (x.link ≠ .up → x.fifo = [] ∧ x.assembler = [] ∧ x.replies = [] ∧ x.resync = false)

/-! ### Trunk port (R144, R146) -/

/-- The runs are within R144, TRUNK timing goes with LOCKED, and the lanes read 0 while the port is not
LOCKED. -/
def TrunkPort.sound (t : TrunkPort) : Prop :=
  t.goodRun ≤ 4 ∧ t.badRun ≤ 2
    ∧ (t.timing = .trunk ↔ t.sync = .locked)
    ∧ (t.sync ≠ .locked →
        t.badRun = 0 ∧ t.presented = Vector.replicate 48 0 ∧ t.lastGood = Vector.replicate 48 0)

/-! ### Mix engine (R36) -/

/-- Every clip counter is at most 65535. -/
def MixEngine.sound (e : MixEngine) : Prop :=
  (∀ p : Port, e.portClips[p] ≤ Config.counterTop)
    ∧ ∀ c : Channel, e.channelClips[c] ≤ Config.counterTop

/-! ### Gains (R16, R18, R43) -/

/-- A record whose gain no rule lets into a slot over 512: valid records hold at most 512. -/
def Record.gainSound (r : Record) : Prop := r.valid = true → r.gain.toNat ≤ Config.gainTop

/-- The hits that a job of the walker holds. -/
def Job.hits (j : Job) : List Hit :=
  match j.walk? with
  | some w =>
    w.reading.hits ++
      match w.phase with
      | .making rest _ => rest
      | .read => []
  | none => []

/-- Every gain in table RAM, in the walker's hands, in an install under way and in a LIVE slot is at most
512. -/
def State.gainsSound (s : State) : Prop :=
  (∀ i : Nat, (s.directory.ram.read i).content.gainSound)
    ∧ (∀ h ∈ s.walker.job.hits, h.content.gain.toNat ≤ Config.gainTop)
    ∧ (∀ r, s.xps.abandoned = some r → r.gain ≤ Config.gainTop)
    ∧ ∀ (i : SlotIx) (c : Connection), s.xps.slots[i] = .live c → c.gain ≤ Config.gainTop

/-! ### Loads (R166, R167, R169, R170) -/

/-- An open load lies within table RAM, and its records are those written, those that wait to be written
and those of the cells still expected. -/
def Load.sound (l : Load) : Prop :=
  l.start + l.count ≤ 1024 ∧ l.written + l.waiting.length + l.expected = l.count

/-- The load in execution, where there is one, is sound. -/
def State.loadSound (s : State) : Prop := ∀ l, s.management.execution = .load l → l.sound

/-! ### Show lock (R160, R177 to R179) -/

/-- With the lock not OPEN, RAM initialisation has ended and no load and no new region is under way; with
the lock FROZEN no new scene is either. -/
def State.lockSound (s : State) : Prop :=
  (s.management.lock ≠ .unlocked → s.directory.initialising = false
      ∧ (∀ l, s.management.execution ≠ .load l)
      ∧ ∀ r, s.management.execution ≠ .access (.setRegion r))
    ∧ (s.management.lock = .frozen → ∀ n, s.management.execution ≠ .access (.setScene n))

/-- The setup of a port, which PORT SETUP sets: its kind, input gate, output floor, master level, sidetone
and duck depth (R138, R140). -/
def StationPort.setup (x : StationPort) : PortKind × Nat × Nat × Nat × Nat × Nat :=
  (x.kind, x.gate, x.floor, x.master, x.sidetone, x.duck)

/-- The setup of a circuit, which CIRCUIT SETUP sets: its members without their marks, answer rule, standby
timeout, go hold and GO without answer (5.1, R85). -/
def Circuit.setup (c : Circuit) : List (Port × CrewLamp) × AnswerRule × Nat × Nat × Bool :=
  (c.members.map fun m => (m.port, m.lamp), c.rule, c.timeout, c.hold, c.goUnanswered)

/-! ### Owners of slots (R20, R72, R73, R81, R82, R96, R107, R131) -/

/-- The key holds its connections: HELD or LATCHED (R63). -/
def KeyEntry.holds (e : KeyEntry) : Prop := e.state = .held ∨ e.state = .latched

/-- The circuit may own slots: it is not IDLE, or its remove circuit request is in transit (R96). -/
def State.circuitOwns (s : State) (c : CircuitIx) : Prop :=
  s.circuits[c].state ≠ .idle ∨ Request.removeCircuit c ∈ s.requests

/-- An owner that no LIVE slot lists. -/
def CrosspointSet.without (x : CrosspointSet) (o : Owner) : Prop :=
  ∀ (i : SlotIx) (c : Connection), x.slots[i] = .live c → o ∉ c.owners

/-- Slots are owned by the keys and circuits that hold them, and what each block has in hand keeps it so. -/
structure State.OwnersSound (s : State) : Prop where
  /-- At no moment does a slot carry KEY(p, k) while the key is OFF, MISSED or REFUSED (R73). -/
  keys : ∀ p k, ¬ (s.entry p k).holds → s.xps.without (.key p k)
  /-- No slot carries CUE(c) while the circuit is IDLE, but for a remove circuit request in transit (R96). -/
  circuits : ∀ c, ¬ s.circuitOwns c → s.xps.without (.cue c)
  /-- With a request of a soft reset still to be taken by the crosspoint set, the walker or the cue engine,
  the walker has nothing in hand (R82). -/
  resetIdle : Request.removeKeysAndCues ∈ s.requests ∨ Request.walkerReset ∈ s.requests
    ∨ Request.circuitAbort ∈ s.requests → s.walker.job = .idle
  /-- An abandoned install stands only before the crosspoint set takes the soft reset's request (R82). -/
  abandonedReset : s.xps.abandoned ≠ none → Request.removeKeysAndCues ∈ s.requests
  /-- The walker's reset follows the removal of every KEY owner (R20, R82). -/
  walkerReset : Request.walkerReset ∈ s.requests → ∀ p k, s.xps.without (.key p k)
    ∧ ∀ r, s.xps.abandoned = some r → r.owner ≠ .key p k
  /-- The abort of the circuits follows the removal of every CUE owner (R20, R107). -/
  circuitAbort : Request.circuitAbort ∈ s.requests → ∀ c, s.xps.without (.cue c)
    ∧ ∀ r, s.xps.abandoned = some r → r.owner ≠ .cue c
  /-- The row reset of a port follows the removal of its keys from every slot, and the last install for
  them (R81, R131). -/
  rowReset : ∀ p, Request.portRowReset p ∈ s.requests → ∀ k, s.xps.without (.key p k)
    ∧ (∀ r, s.xps.abandoned = some r → r.owner ≠ .key p k)
    ∧ ∀ w rest h hs ok, s.walker.job = .walking w rest → w.tag = .key p k →
        w.phase ≠ .making (h :: hs) ok
  /-- An abandoned install is for a HELD key or a circuit that may own slots (R72, R82). -/
  abandonedOwner : ∀ r, s.xps.abandoned = some r →
    (∀ p k, r.owner = .key p k → (s.entry p k).state = .held)
      ∧ ∀ c, r.owner = .cue c → s.circuitOwns c
  /-- A walk is asked for, and reads, for a key that holds no connection (R64, R67, R71). -/
  waiting : ∀ tag retry rest p k, s.walker.job = .waiting tag retry rest → tag = .key p k →
    ¬ (s.entry p k).holds
  reading : ∀ w rest p k, s.walker.job = .walking w rest → w.phase = .read → w.tag = .key p k →
    ¬ (s.entry p k).holds
  /-- A walk that makes its hits good is of a HELD key, which owns no slot before the first success (R72, R73). -/
  making : ∀ w rest hs ok p k, s.walker.job = .walking w rest → w.phase = .making hs ok →
    w.tag = .key p k → (s.entry p k).state = .held
      ∧ (ok = false → s.xps.without (.key p k))
  /-- A walk whose port dropped, or whose circuit entered IDLE, before its reading ended makes no hit good (R71, R96,
  R131). -/
  unsuppressed : ∀ w rest hs ok, s.walker.job = .walking w rest → w.phase = .making hs ok →
    w.suppressed = false
  /-- A walk with installs still to send is of a circuit that may own slots (R71, R96). -/
  makingCue : ∀ w rest h hs ok c, s.walker.job = .walking w rest → w.phase = .making (h :: hs) ok →
    w.tag = .cue c → s.circuitOwns c

/-! ### Terms that claims use -/

/-- `m` holds the inputs of the mix of the frame start that takes `s` to `t` (R22 to R25): the LIVE
connections, the microphone value of each port, which is its sample for the frame where it is UP and of a
kind that has a microphone and 0 otherwise, through its input gate, the lanes presented, 0 outside LOCKED, and
the ports' links, kinds and settings. -/
def State.mixes (s t : State) (m : MixInput) : Prop :=
  m.conns = s.xps.connections
    ∧ (∀ p : Port,
        let mic : Int := match s.ports[p].link, s.ports[p].kind with
          | .up, .beltpack | .up, .panel | .up, .desk => t.ports[p].lastHanded.toInt
          | _, _ => 0
        m.mics[p] = if mic.natAbs ≤ s.ports[p].gate then 0 else mic)
    ∧ (∀ n : Lane, m.lanes[n] = if s.trunk.sync = .locked then s.trunk.presented[n].toInt else 0)
    ∧ ∀ p : Port, m.ports[p].link = s.ports[p].link ∧ m.ports[p].setup = s.ports[p].setup

/-- `r` is in transit and is the last request of the SOFT RESET in execution that a block has still to take;
the command `c` at the head of the command queue is that SOFT RESET, `n` commands having been discarded
(R160, R174). -/
def State.lastOfReset (s : State) (r : Request) (n : Nat) (c : Command) (rest : List Command) : Prop :=
  r ∈ s.requests ∧ s.management.commands = c :: rest ∧ s.management.execution = .softReset n
    ∧ ∀ x ∈ s.requests.erase r, x ≠ .removeKeysAndCues ∧ x ≠ .walkerReset ∧ x ≠ .circuitAbort
        ∧ ∀ p, x ≠ .portResync p

/-- Every state of the show lock, for commands that none of them refuses (R177). -/
def anyLock : List LockState := [.unlocked, .locked, .frozen]

/-- The command `c`, with `rest` behind it, stands at the head of the command queue, has this code, and
may begin in one of the given states of the show lock (R160, R161). -/
def State.canRun (s : State) (code : Nat) (locks : List LockState) (c : Command)
    (rest : List Command) : Prop :=
  s.management.commands = c :: rest ∧ c.code.toNat = code ∧ s.directory.initialising = false
    ∧ s.management.execution = .none ∧ s.management.replies.length < 8 ∧ s.management.lock ∈ locks

/-- The state in which the command `c` at the head has left the command queue and its reply has joined
the reply queue (R160, R163). -/
def State.answered (s : State) (c : Command) (rest : List Command) (a : Answer) : State :=
  s.setManagement { s.management with
    commands := rest
    replies := s.management.replies ++ [⟨c.tag, a.status, a.clamped, parameters a.params⟩]
    execution := .none }

/-- The walker may take an event: it has nothing in hand, RAM initialisation has ended, and no request of
a soft reset is still to be taken by the crosspoint set, the walker or the cue engine (R62, R82). -/
def State.walkerReady (s : State) : Prop :=
  s.walker.job = .idle ∧ s.directory.initialising = false ∧ Request.removeKeysAndCues ∉ s.requests
    ∧ Request.walkerReset ∉ s.requests ∧ Request.circuitAbort ∉ s.requests

/-- Every step from a state with the property that answers a next state answers one with the property. -/
def Kept (P : State → Prop) : Prop := ∀ s t : State, step s = .next t → P s → P t

/-- The state in which the event at the head of the key event queue has been taken. -/
def State.withQueue (s : State) (q : List KeyEvent) : State := s.setWalker { s.walker with queue := q }

end Sys2Proof.Machine
end

