-- ==== Sys2Proof/Certificates/Slice0/Obligations.lean ====
section
/-!
DEFINITION. The statements for the provers. A statement that some command completes gives the next state
in full, or gives every field that the command may change and says of the others that they are kept.
-/

open Sys2Proof Sys2Proof.Machine

/-! ### The step, resets and RAM initialisation -/

/-- A step carries out the command at the front of the queue on the state with the rest of the queue. The
second clause, that the block idles on an empty queue, is the model's choice (log 1). -/
def Obligations.StepRunsTheFrontCommand : Prop :=
  (∀ (c : Instr) (rest : List Instr) (s : State), s.pending = c :: rest →
    step s = exec c (s.setPending rest))
  ∧ ∀ s : State, s.pending = [] → step s = .next s

/-- Pin reset, in every state and for every strap setting, completes with every block at its pin-reset
values (R1, R2, R36, R45, R63, R83, R109, R126, R156, R175, R190), the ring position being the straps'
(R154), and the queue of waiting commands kept. That table RAM keeps its content until initialisation has
ended is the model's choice (log 3). -/
def Obligations.PinResetValues : Prop :=
  ∀ (straps : Fin 8) (s : State), ∃ t, exec (.pinReset straps) s = .next t
    ∧ t.trunk.sync = .hunt ∧ t.trunk.goodRun = 0 ∧ t.trunk.badRun = 0 ∧ t.trunk.timing = .localClock
    ∧ t.trunk.clock = 0 ∧ t.trunk.frameNumber = 0 ∧ t.trunk.upstreamLost = false
    ∧ t.trunk.position = straps
    ∧ (∀ n : Lane, t.trunk.laneMap[n] = .pass ∧ t.trunk.presented[n] = 0 ∧ t.trunk.lastGood[n] = 0)
    ∧ (∀ p : Port, t.ports[p].kind = .unused ∧ t.ports[p].link = .down ∧ t.ports[p].goodRun = 0
        ∧ t.ports[p].badRun = 0 ∧ t.ports[p].fifo = [] ∧ t.ports[p].lastGood = 0
        ∧ t.ports[p].lastHanded = 0 ∧ t.ports[p].slips = 0 ∧ t.ports[p].keys = 0
        ∧ t.ports[p].resync = false ∧ t.ports[p].assembler = [] ∧ t.ports[p].replies = []
        ∧ t.ports[p].gate = 0 ∧ t.ports[p].floor = 0 ∧ t.ports[p].master = 256
        ∧ t.ports[p].sidetone = 0 ∧ t.ports[p].duck = 64)
    ∧ t.group = 0
    ∧ t.directory.region = .span64 0 ∧ t.directory.scene = 0 ∧ t.directory.initialising = true
    ∧ t.directory.ram = s.directory.ram
    ∧ t.walker.queue = [] ∧ t.walker.job = .idle
    ∧ (∀ (p : Port) (k : Key), t.walker.entry p k = ⟨.off, .momentary, 0, false, .off, []⟩)
    ∧ (∀ p : Port, t.walker.calls[p] = 0)
    ∧ (∀ i : SlotIx, t.xps.slots[i] = .lockedOut) ∧ t.xps.pointer = 0
    ∧ (∀ p : Port, t.mixer.portClips[p] = 0) ∧ (∀ c : Channel, t.mixer.channelClips[c] = 0)
    ∧ (∀ c : CircuitIx, t.circuits[c].members = [] ∧ t.circuits[c].rule = .all
        ∧ t.circuits[c].timeout = 0 ∧ t.circuits[c].hold = 30 ∧ t.circuits[c].goUnanswered = true
        ∧ t.circuits[c].state = .idle ∧ t.circuits[c].late = false ∧ t.circuits[c].cue = none
        ∧ t.circuits[c].standbyDeadline = none ∧ t.circuits[c].holdDeadline = none
        ∧ t.circuits[c].pending = false ∧ t.circuits[c].pendingCue = none
        ∧ t.circuits[c].history = [])
    ∧ t.cueList.entries = [] ∧ t.cueList.cursor = 0 ∧ t.cueList.lastCue = none
    ∧ t.cueList.beforeFault = none
    ∧ t.management.commands = [] ∧ t.management.replies = [] ∧ t.management.notices = []
    ∧ t.management.seq = 0 ∧ t.management.lock = .unlocked ∧ t.management.execution = .none
    ∧ t.faultLog.records = [] ∧ t.faultLog.readPos = 0
    ∧ t.requests = [] ∧ t.pending = s.pending

/-- RAM initialisation ends (R55, R40): every place holds the initialised content with a clean code and a
clear poison mark, the table port is free of the initialisation, and nothing else changes. -/
def Obligations.RamInitialisationEnds : Prop :=
  ∀ s : State, s.directory.initialising = true →
    ∃ d, exec .ramInitialisationEnd s = .next (s.setDirectory d)
      ∧ (∀ i : Place, (d.ram.read i.val).content =
            ⟨false, false, 0, 0, 0, 0, 0, 0, 0, 0, 0xFFFF⟩
          ∧ (d.ram.read i.val).ecc = .clean ∧ (d.ram.read i.val).poisoned = false)
      ∧ d.initialising = false ∧ d.region = s.directory.region ∧ d.scene = s.directory.scene
      ∧ d.turn = s.directory.turn

/-! ### The frame start -/

/-- The connections of the crosspoint set are those of its LIVE slots, by rising slot index (R2, R22). A frame
start, under LOCAL timing or with the arrival of its period, completes (R22, R147). The show
clock gains one modulo 2^32, and a deadline is reached when the clock then equals it (R148); a port that is
UP gives its oldest sample, or its last handed sample again with a slip, and any other port gives none
(R23, R133); the downlink group steps (R139). A port's clip counter gains one where its output after the
master level lies outside −32768..32767, and a channel's one for each slot with it as source whose channel
value lies outside, both stopping at 65535 (R36). Slots, key states, key events, table RAM, the cue list, the
fault log, the lane map and the sync state are not changed. Under TRUNK timing without the arrival of its
period there is no frame start: that the command then stands for no event is the model's choice (log 2). -/
def Obligations.FrameStartClockAndSamples : Prop :=
  (∀ x : CrosspointSet, x.connections = (List.finRange 64).filterMap fun i => match x.slots[i] with
    | .live c => some c
    | .lockedOut | .free | .retired => none)
  ∧ (∀ s : State, s.trunk.timing = .trunk → s.trunk.period = none → exec .frameStart s = .next s)
  ∧ ∀ s : State, s.trunk.timing = .localClock ∨ s.trunk.period ≠ none →
    ∃ (t : State) (m : MixInput), exec .frameStart s = .next t ∧ s.mixes t m
      ∧ (let outside (x : Int) : Bool := decide (x < -32768 ∨ 32767 < x)
        (∀ p : Port, t.mixer.portClips[p] =
            min (s.mixer.portClips[p] + if outside (m.portOutput p) then 1 else 0) 65535)
        ∧ ∀ c : Channel, t.mixer.channelClips[c] = min (s.mixer.channelClips[c]
            + (m.conns.filter fun x =>
                x.source == .channel c && outside (m.channelValue c x.dest)).length) 65535)
      ∧ t.trunk.clock = s.trunk.clock + 1 ∧ t.group = s.group + 1
      ∧ (∀ c : CircuitIx, t.circuits[c] = { s.circuits[c] with
          standbyDeadline := s.circuits[c].standbyDeadline.map fun d =>
            ⟨d.due, d.reached || d.due == s.trunk.clock + 1⟩
          holdDeadline := s.circuits[c].holdDeadline.map fun d =>
            ⟨d.due, d.reached || d.due == s.trunk.clock + 1⟩ })
      ∧ (∀ l, s.management.execution = .load l → t.management.execution = .load { l with
          deadline := ⟨l.deadline.due, l.deadline.reached || l.deadline.due == s.trunk.clock + 1⟩ })
      ∧ (∀ p : Port,
          (s.ports[p].link ≠ .up → t.ports[p].fifo = s.ports[p].fifo
            ∧ t.ports[p].lastHanded = s.ports[p].lastHanded ∧ t.ports[p].slips = s.ports[p].slips)
          ∧ (∀ v rest, s.ports[p].link = .up → s.ports[p].fifo = v :: rest →
              t.ports[p].fifo = rest ∧ t.ports[p].lastHanded = v
                ∧ t.ports[p].slips = s.ports[p].slips)
          ∧ (s.ports[p].link = .up → s.ports[p].fifo = [] →
              t.ports[p].fifo = [] ∧ t.ports[p].lastHanded = s.ports[p].lastHanded
                ∧ t.ports[p].slips = min (s.ports[p].slips + 1) 65535)
          ∧ t.ports[p].link = s.ports[p].link ∧ t.ports[p].keys = s.ports[p].keys
          ∧ t.ports[p].resync = s.ports[p].resync)
      ∧ t.trunk.sync = s.trunk.sync ∧ t.trunk.laneMap = s.trunk.laneMap
      ∧ t.trunk.lastGood = s.trunk.lastGood ∧ t.trunk.period = none
      ∧ t.xps = s.xps ∧ t.walker = s.walker ∧ t.directory = s.directory ∧ t.cueList = s.cueList
      ∧ t.faultLog = s.faultLog ∧ t.requests = s.requests ∧ t.pending = s.pending

/-- The value of a channel (R26, R27, R28, R29). A slot's contribution is its source value times its gain, scaled
by 1/256 with the half added before the floor. Local is the sum over the slots from ports into the channel,
Remote over those from lanes, and Own over those from one port. Towards port p the value is Local minus Own
plus Remote: mix-minus, so it does not depend on port p's own microphone. Towards a lane it is Local alone, so it
does not depend on the lanes received. -/
def Obligations.MixMinusAndNoRingReturn : Prop :=
  (∀ (m : MixInput) (c : Channel) (p : Port) (n : Lane),
    let term (x : Connection) : Int := match x.source with
      | .port q => (m.mics[q] * x.gain + 128) / 256
      | .lane j => (m.lanes[j] * x.gain + 128) / 256
      | .channel _ => 0
    let total (test : Endpoint → Bool) : Int :=
      ((m.conns.filter fun x => x.dest == .channel c && test x.source).map term).sum
    let Local := total fun e => match e with | .port _ => true | .lane _ | .channel _ => false
    let Remote := total fun e => match e with | .lane _ => true | .port _ | .channel _ => false
    let Own := total fun e => e == .port p
    m.channelValue c (.port p) = Local - Own + Remote ∧ m.channelValue c (.lane n) = Local)
  ∧ (∀ (m m' : MixInput) (c : Channel) (p : Port), m.conns = m'.conns → m.lanes = m'.lanes →
    (∀ q : Port, q ≠ p → m.mics[q] = m'.mics[q]) →
    m.channelValue c (.port p) = m'.channelValue c (.port p))
  ∧ ∀ (m m' : MixInput) (c : Channel) (n : Lane), m.conns = m'.conns → m.mics = m'.mics →
    m.channelValue c (.lane n) = m'.channelValue c (.lane n)

/-- The outputs (R26, R28 to R35). A slot's contribution is its port or lane value, or its channel's value
saturated, times its gain, scaled with rounding. The output of a port is the sum of the contributions into it,
PROGRAM ones scaled by the duck depth while a PRIORITY or CUE_CALL slot has the port as destination, plus the
sidetone of its own microphone where it is UP and no CUE BOX, the whole scaled by the master level. No narrowing
wraps: read as a signed number, the headset sample is that output saturated to −32768..32767, with the output
floor last, and the lane sample is the saturated lane sum. -/
def Obligations.OutputsAreSaturated : Prop :=
  ∀ m : MixInput,
    let scaled (x : Int) (g : Nat) : Int := (x * g + 128) / 256
    (∀ x : Connection, m.contribution x = match x.source with
      | .port q => scaled m.mics[q] x.gain
      | .lane n => scaled m.lanes[n] x.gain
      | .channel c => scaled (max (-32768) (min 32767 (m.channelValue c x.dest))) x.gain)
    ∧ (∀ p : Port,
      let duck := m.conns.any fun y => (y.cls == .priority || y.cls == .cueCall) && y.dest == .port p
      let heard (x : Connection) : Int :=
        if x.cls = .program ∧ duck = true then scaled (m.contribution x) m.ports[p].duck
        else m.contribution x
      let own : Int := if m.ports[p].link = .up ∧ m.ports[p].kind ≠ .cueBox then
        scaled m.mics[p] m.ports[p].sidetone else 0
      m.portOutput p = scaled (((m.conns.filter fun x => x.dest == .port p).map heard).sum + own)
        m.ports[p].master)
    ∧ (∀ p : Port,
      ((m.headset p).toInt = m.portOutput p ∨ (m.headset p).toInt = 32767 ∨ (m.headset p).toInt = -32768
        ∨ (m.headset p).toInt = 0)
      ∧ (m.ports[p].floor < (m.portOutput p).natAbs → -32768 ≤ m.portOutput p →
          m.portOutput p ≤ 32767 → (m.headset p).toInt = m.portOutput p)
      ∧ (32767 < m.portOutput p → m.ports[p].floor < 32767 → (m.headset p).toInt = 32767)
      ∧ (m.portOutput p < -32768 → m.ports[p].floor < 32768 → (m.headset p).toInt = -32768)
      ∧ ((m.portOutput p).natAbs ≤ m.ports[p].floor → m.ports[p].floor ≤ 255 →
          (m.headset p).toInt = 0))
    ∧ ∀ n : Lane, (m.laneOutput n).toInt =
        max (-32768) (min 32767 ((m.conns.filter fun x => x.dest == .lane n).map m.contribution).sum)

/-- The downlinks of a frame start (R127, R138, R139): an UNUSED port sends nothing; every other port sends ten
bytes that sum to 0; a port that is not UP sends a headset sample of 0, every lamp OFF and no message byte,
with the group for which the frame was built; a port that is UP with a reply in its buffer sends the reply's
next byte, the start flag set on the first of the four, and drops the reply after its last byte. A port that is
UP sends its headset sample of this frame's mix, the lamps of its keys K1 to K4, the call lamp, FLASH while its
call count is above 0 and else its CALL key's lamp, the two crew lamps by the precedence GO, STANDBY, READY, OFF
over the circuits that have the lamp as a member, LATE showing as STANDBY (R102), and for a DESK the lamps of the
eight circuits of the group, OFF for other kinds (R103). That the frame carries the group counter as it stands before its step is the model's reading (log 11). -/
def Obligations.DownlinkFrames : Prop :=
  ∀ s : State, s.trunk.timing = .localClock ∨ s.trunk.period ≠ none →
    ∃ (t : State) (m : MixInput), exec .frameStart s = .next t ∧ s.mixes t m ∧ ∀ p : Port,
      (s.ports[p].kind = .unused → t.ports[p].txFrame = none)
      ∧ (s.ports[p].kind ≠ .unused → ∃ b, t.ports[p].txFrame = some b ∧ b.length = 10 ∧ b.sum = 0)
      ∧ (s.ports[p].kind ≠ .unused → s.ports[p].link ≠ .up →
          ∃ check, t.ports[p].txFrame = some [0, 0, 0, 0, 0, byte (16 * s.group.val), 0, 0, 0, check]
            ∧ t.ports[p].replies = s.ports[p].replies)
      ∧ (∀ b bs rest, s.ports[p].kind ≠ .unused → s.ports[p].link = .up →
          s.ports[p].replies = (b :: bs) :: rest →
          (∃ f, t.ports[p].txFrame = some f ∧ byteAt f 4 = b
            ∧ (byteAt f 5).getLsbD 0 = (bs.length == 3) ∧ (byteAt f 5).getLsbD 1 = true)
          ∧ t.ports[p].replies = if bs = [] then rest else bs :: rest)
      ∧ (s.ports[p].kind ≠ .unused → s.ports[p].link = .up →
          let lamp (k : Key) : Nat :=
            match (s.entry p k).lamp with | .off => 0 | .on => 1 | .miss => 2 | .busy => 3
          let call : Nat := if 0 < s.walker.calls[p] then 4 else lamp 4
          let shows (l : CrewLamp) (st : CircuitState) : Bool := (List.finRange 24).any fun c =>
            s.circuits[c].state == st && s.circuits[c].members.any fun x => x.port == p && x.lamp == l
          let crew (l : CrewLamp) : Nat := if shows l .go then 3
            else if shows l .standby || shows l .late then 1 else if shows l .ready then 2 else 0
          let message : Byte × Nat := match s.ports[p].replies with
            | (b :: bs) :: _ => (b, if bs.length = 3 then 3 else 2)
            | _ => (0, 0)
          let desk (i : Fin 8) : Nat := if s.ports[p].kind = .desk then
            match s.circuits[(⟨8 * s.group.val + i.val, by omega⟩ : CircuitIx)].state with
            | .idle => 0 | .standby => 1 | .ready => 2 | .late => 3 | .go => 4
            else 0
          let field := ((List.finRange 8).map fun i => desk i * 8 ^ i.val).sum
          ∃ check, t.ports[p].txFrame = some (bytesOf16 (m.headset p)
            ++ [byte (lamp 0 + 4 * lamp 1 + 16 * lamp 2 + 64 * lamp 3),
              byte (call + 8 * crew .a + 32 * crew .b), message.1,
              byte (message.2 + 16 * s.group.val)]
            ++ bytesOf24 (BitVec.ofNat 24 field) ++ [check]))

/-- The outgoing trunk frame of a frame start (R149, R151, R153, R158). `cell` and the queues after it are those
of the arbiter: the head of the reply queue, else of the notice queue, else an IDLE cell; its credit is 4 less the
commands that the command queue then holds, the one at its head included (R158). The frame number
counter takes the number of the frame sent plus one; OWNED lanes carry the lane sums of this frame's mix. -/
def Obligations.OutgoingTrunkFrame : Prop :=
  ∀ s : State, s.trunk.timing = .localClock ∨ s.trunk.period ≠ none →
    ∃ (t : State) (m : MixInput), exec .frameStart s = .next t
      ∧ s.mixes t m
      ∧ (let credit := 4 - s.management.commands.length
        let free : List Byte × List Reply × List Notice :=
          match s.management.replies, s.management.notices with
          | r :: rs, ns => (r.cell s.trunk.position credit, rs, ns)
          | [], n :: ns => (n.cell s.trunk.position credit, [], ns)
          | [], [] => (List.replicate 16 0, [], [])
        let lanes (pass : Vector Sample 48) : Vector Sample 48 := Vector.ofFn fun n =>
          match s.trunk.laneMap[n] with
          | .owned => m.laneOutput n
          | .pass => pass[n]
        let sent (f : TrunkFrame) (bad : Bool) : Prop :=
          t.trunk.txFrame = some (f.write bad) ∧ t.trunk.frameNumber = f.number + 1
        let kept : Prop := t.management.replies = s.management.replies
          ∧ t.management.notices = s.management.notices
        let filled : Prop := t.management.replies = free.2.1 ∧ t.management.notices = free.2.2
        match s.trunk.period with
        | some (.taken number lost pass .free) => sent ⟨number, lost, lanes pass, free.1⟩ false ∧ filled
        | some (.taken number lost pass (.carry cell)) =>
          sent ⟨number, lost, lanes pass, cell⟩ false ∧ kept
        | some (.heldBad number lost pass) =>
          sent ⟨number, lost, lanes pass, List.replicate 16 0⟩ true ∧ kept
        | some .heldMissing | some .reinit =>
          sent ⟨s.trunk.frameNumber, true, lanes (Vector.replicate 48 0), List.replicate 16 0⟩ true
            ∧ kept
        | none =>
          sent ⟨s.trunk.frameNumber, true, lanes (Vector.replicate 48 0), free.1⟩ false ∧ filled)

/-! ### Encodings of chapter 12 -/

/-- Trunk frames (12.1, R143, R149, R191): the next ring member reads a frame sent with its check computed
as a good frame with exactly the fields sent, and a frame whose check is marked bad as a bad frame with
those fields. A frame is the sync word, the frame number, the UPSTREAM_LOST flag in bit 0, the 48 lanes high byte
first, the cell field and the CRC-16 over them, inverted where it is marked bad; the CRC starts from 0xFFFF and
takes each byte most significant bit first with the generator x^16 + x^12 + x^5 + 1. Of 118 bytes received, the
fields are read from the same places whether the check agrees or not; bytes without the sync word are none. That
bytes with the sync word that are not 118 are a bad frame is the model's choice (log 17). -/
def Obligations.TrunkFramesAgree : Prop :=
  (∀ f : TrunkFrame, f.cell.length = 16 →
    (f.write false).length = 118 ∧ Arrival.judge (f.write false) = .good f
      ∧ (f.write true).length = 118 ∧ Arrival.judge (f.write true) = .bad f)
  ∧ (∀ (f : TrunkFrame) (bad : Bool),
      let body := [0xE2, 0x5B, f.number, if f.upstreamLost then 1 else 0]
        ++ (f.lanes.toList.map bytesOf16).flatten ++ f.cell
      f.write bad = body ++ bytesOf16 (if bad then ~~~(crc16 body) else crc16 body))
  ∧ crc16 [] = 0xFFFF
  ∧ (∀ (bs : List Byte) (b : Byte),
      let turn (x : BitVec 16) : BitVec 16 := if x.getLsbD 15 then (x <<< 1) ^^^ 0x1021 else x <<< 1
      crc16 (bs ++ [b]) = Nat.iterate turn 8 (crc16 bs ^^^ (b.setWidth 16 <<< 8)))
  ∧ ∀ bytes : List Byte,
      let fields : TrunkFrame := ⟨byteAt bytes 2, (byteAt bytes 3).getLsbD 0,
        Vector.ofFn fun n => byteAt bytes (4 + 2 * n.val) ++ byteAt bytes (5 + 2 * n.val),
        (bytes.drop 100).take 16⟩
      let agrees : Prop := byteAt bytes 116 ++ byteAt bytes 117 = crc16 (bytes.take 116)
      (bytes.take 2 ≠ [0xE2, 0x5B] → Arrival.judge bytes = .noSync)
      ∧ (bytes.take 2 = [0xE2, 0x5B] →
        (bytes.length = 118 → agrees → Arrival.judge bytes = .good fields)
        ∧ (bytes.length = 118 → ¬ agrees → Arrival.judge bytes = .bad fields)
        ∧ (bytes.length ≠ 118 → ∃ f, Arrival.judge bytes = .bad f))

/-- The encodings in bytes (R191, 12.4, 12.5, 12.6). Values of two, three and four bytes are sent and read high
byte first, a sum check makes the bytes it covers sum to 0, and a cell has ten parameter bytes, 0 where none is
given. Ports, lanes and channels have their endpoint bytes, and no other byte is an endpoint; a directory record
lies in P0 to P8 as 12.5 lays it out; kinds, classes, states, lamps, modes, rules and reply statuses have the codes
of 12.2, 12.4 and 12.6. Every directory record, endpoint, slot class and port
kind is read back from its own code. Every cell that this chip builds has sixteen bytes that sum to 0; a REPLY
cell carries kind 3, the ring position, the command's tag, the status with the CLAMPED mark as bit 7, ten
parameter bytes and the credit (R158, R163); a NOTICE cell kind 4, the position, the sequence number as its tag,
its kind and its contents (R158, R164, R165). The bytes of a SLOT_FULL for which there is no evicted connection
are the model's reading (log 13). -/
def Obligations.CellEncodingsAgree : Prop :=
  (∀ (bs : List Byte) (i : Nat), byteAt bs i = (bs[i]?).getD 0
    ∧ (wordAt bs i).toNat = 256 * (byteAt bs i).toNat + (byteAt bs (i + 1)).toNat
    ∧ (word24At bs i).toNat = 65536 * (byteAt bs i).toNat + 256 * (byteAt bs (i + 1)).toNat
        + (byteAt bs (i + 2)).toNat
    ∧ (∃ check, withSumCheck bs = bs ++ [check] ∧ (withSumCheck bs).sum = 0)
    ∧ (parameters bs).length = 10 ∧ (i < 10 → byteAt (parameters bs) i = byteAt bs i))
  ∧ (∀ (x : BitVec 16) (y : BitVec 24) (z : BitVec 32) (n : Nat),
      bytesOf16 x = [byte (x.toNat / 256), byte x.toNat]
      ∧ bytesOf24 y = [byte (y.toNat / 65536), byte (y.toNat / 256), byte y.toNat]
      ∧ bytesOf32 z = [byte (z.toNat / 16777216), byte (z.toNat / 65536), byte (z.toNat / 256), byte z.toNat]
      ∧ bytes16 n = [byte (n / 256), byte n] ∧ (byte n).toNat = n % 256)
  ∧ (∀ (p : Port) (n : Lane) (c : Channel), (Endpoint.port p).encode = byte p.val
      ∧ (Endpoint.lane n).encode = byte (64 + n.val) ∧ (Endpoint.channel c).encode = byte (128 + c.val))
  ∧ (∀ b : Byte, Endpoint.decode b = none ↔ ∀ e : Endpoint, e.encode ≠ b)
  ∧ (∀ ps : List Byte,
      let r := Record.decode ps
      let b (i : Nat) : Nat := (byteAt ps i).toNat
      r.valid = decide (128 ≤ b 0) ∧ r.tagCue = decide (b 0 / 64 % 2 = 1) ∧ r.mode.toNat = b 0 / 16 % 4
        ∧ r.cls.toNat = b 0 % 8 ∧ r.tagIndex.toNat = b 1 / 8 ∧ r.tagKey.toNat = b 1 % 8
        ∧ r.scenes.toNat = b 2 ∧ r.source.toNat = b 3 ∧ r.dest.toNat = b 4
        ∧ r.gain.toNat = 256 * b 5 + b 6 ∧ r.next.toNat = 256 * b 7 + b 8)
  ∧ (∀ r : Record, r.encode.length = 9 ∧ (byteAt r.encode 0).getLsbD 3 = false)
  ∧ [PortKind.unused, .beltpack, .panel, .desk, .cueBox].map PortKind.code = [0, 1, 2, 3, 4]
  ∧ [SlotClass.talk, .priority, .program, .cueCall, .listen].map SlotClass.code = [0, 1, 2, 4, 5]
  ∧ (∀ n : Nat, SlotClass.decode n = none ↔ n = 3 ∨ 5 < n)
  ∧ [LinkState.down, .training, .up].map LinkState.code = [0, 1, 2]
  ∧ [KeyState.off, .held, .latched, .missed, .refused].map KeyState.code = [0, 1, 2, 3, 4]
  ∧ [KeyMode.momentary, .latching, .auto].map KeyMode.code = [0, 1, 2]
  ∧ [0, 1, 2, 3].map KeyMode.decode = [some .momentary, some .latching, some .auto, none]
  ∧ [KeyLamp.off, .on, .miss, .busy].map KeyLamp.code = [0, 1, 2, 3]
  ∧ [CircuitState.idle, .standby, .ready, .late, .go].map CircuitState.code = [0, 1, 2, 3, 4]
  ∧ (∀ c : Connection, [Slot.lockedOut, .free, .live c, .retired].map Slot.code = [0, 1, 2, 3])
  ∧ [LockState.unlocked, .locked, .frozen].map LockState.code = [0, 1, 2]
  ∧ [AnswerRule.all, .any].map AnswerRule.code = [0, 1]
  ∧ [OutcomeKind.answered, .lateAnswered, .unanswered, .cancelled, .aborted].map OutcomeKind.code
      = [1, 2, 3, 4, 5]
  ∧ [Status.done, .unknown, .badParam, .locked, .align, .full, .noSlot, .fullOwners, .notOwner, .noLoad,
      .timeout, .badRecord, .poisoned, .notHeld, .circuitBusy].map Status.code
      = [0x00, 0x01, 0x02, 0x03, 0x04, 0x05, 0x06, 0x07, 0x08, 0x09, 0x0A, 0x0B, 0x0C, 0x0D, 0x0E]
  ∧ [Status.notInStandby, .unanswered, .emptyCircuit, .already, .listEnd, .listStart].map Status.code
      = [0x10, 0x11, 0x12, 0x13, 0x14, 0x15]
  ∧ (∀ r : Record, Record.decode r.encode = r)
  ∧ (∀ e : Endpoint, Endpoint.decode e.encode = some e)
  ∧ (∀ c : SlotClass, SlotClass.decode c.code = some c)
  ∧ (∀ k : PortKind, PortKind.decode k.code = some k)
  ∧ (∀ (r : Reply) (position : Fin 8) (credit : Nat), r.params.length = 10 →
      (r.cell position credit).length = 16 ∧ (r.cell position credit).sum = 0
      ∧ ∃ check, r.cell position credit = [3, byte position.val, r.tag,
          byte (r.status.code + if r.clamped then 128 else 0)] ++ r.params ++ [byte credit, check])
  ∧ ∀ (n : Notice) (position : Fin 8) (credit : Nat),
      (n.cell position credit).length = 16 ∧ (n.cell position credit).sum = 0
      ∧ let contents : Byte × List Byte := match n.body with
          | .pathMiss tag reason place visited ignored => (1,
            (match tag with | .key p k => [0, byte p.val, byte k.val] | .cue c => [1, byte c.val, 0])
            ++ [match reason with
              | .poisoned => 0 | .chainLimit => 1 | .emptyHome => 2 | .unarmed => 3 | .noMatch => 4
              | .excessHits => 5]
            ++ bytes16 place.val ++ [byte visited, byte ignored, 0, 0])
          | .fault kind loc stamp => (2, [byte (faultCode kind), if severe kind then 128 else 0]
            ++ (match loc with
              | .nowhere => bytes16 0 | .port p => bytes16 (0x4000 + p.val)
              | .place i => bytes16 (0x8000 + i.val) | .circuit c => bytes16 (0xC000 + c.val))
            ++ bytesOf32 stamp ++ [0, 0])
          | .cueEvent c state cue late stamp => (3, [byte c.val, match state with
              | .idle => 0 | .standby => 1 | .ready => 2 | .late => 3 | .go => 4]
            ++ (match cue with | some x => bytes16 x.val | none => [0xFF, 0xFF])
            ++ [if late then 1 else 0] ++ bytesOf32 stamp ++ [0])
          | .slotFull slot live retired none =>
            (4, [0, byte slot.val, byte live, byte retired, 0xFF, 0xFF, 0xFF, 0, 0, 0])
          | .slotFull slot live retired (some (src, dst, cls)) => (4, [1, byte slot.val, byte live,
              byte retired, src.encode, dst.encode, byte cls.code, 0, 0, 0])
        ∃ check, n.cell position credit = [4, byte position.val, n.seq, contents.1]
          ++ contents.2 ++ [byte credit, check]
/-! ### The trunk port -/

/-- Frame sync outside LOCKED (R144, R147): in HUNT any frame that begins with the sync word leads to VERIFY and
is not counted; in VERIFY the fourth good frame makes the port LOCKED under TRUNK timing, and a bad or
missing frame leads back to HUNT; nothing of these frames is taken, and no other block changes. That bytes
without a sync word change nothing in VERIFY and LOCKED, where MISSING_FRAME stands for the missing frame,
is the model's choice (log 16). That the good run stays 4 from then on is the model's reading (log 14). -/
def Obligations.FrameSyncOutsideLocked : Prop :=
  ∀ (s : State) (bytes : List Byte),
    (Arrival.judge bytes = .noSync → exec (.trunkArrival bytes) s = .next s)
    ∧ (Arrival.judge bytes ≠ .noSync → s.trunk.sync = .hunt →
        exec (.trunkArrival bytes) s = .next (s.setTrunk { s.trunk with sync := .verify, goodRun := 0 }))
    ∧ (∀ f, Arrival.judge bytes = .good f → s.trunk.sync = .verify →
        (s.trunk.goodRun < 3 → exec (.trunkArrival bytes) s =
          .next (s.setTrunk { s.trunk with goodRun := s.trunk.goodRun + 1 }))
        ∧ (s.trunk.goodRun = 3 → exec (.trunkArrival bytes) s =
          .next (s.setTrunk { s.trunk with goodRun := 4, sync := .locked, timing := .trunk })))
    ∧ (∀ f, Arrival.judge bytes = .bad f → s.trunk.sync = .verify → exec (.trunkArrival bytes) s =
        .next (s.setTrunk { s.trunk with sync := .hunt, goodRun := 0 }))
    ∧ (s.trunk.sync = .verify →
        exec .missingFrame s = .next (s.setTrunk { s.trunk with sync := .hunt, goodRun := 0 }))
    ∧ (s.trunk.sync = .hunt → exec .missingFrame s = .next s)

/-- A bad or missing frame in LOCKED (R144, R145, R146): at a bad run of 1 or 2 it is held, the lanes
present the last good samples and TRUNK_CHECK is reported; at 3 the trunk reinit puts the port in HUNT with
LOCAL timing, both runs 0, the last good samples 0 and every lane presenting 0, and TRUNK_SYNC_LOSS is
reported instead. The lane map, the show clock, the frame number counter and every other block are kept. -/
def Obligations.LockedFrameLost : Prop :=
  ∀ s : State, s.trunk.sync = .locked → ∀ (c : Instr) (held : Period),
    (c = .missingFrame ∧ held = .heldMissing
      ∨ ∃ bytes f, c = .trunkArrival bytes ∧ Arrival.judge bytes = .bad f
          ∧ held = .heldBad f.number f.upstreamLost f.lanes) →
    (s.trunk.badRun ≤ 1 → exec c s = .next ((s.setTrunk { s.trunk with
        badRun := s.trunk.badRun + 1, presented := s.trunk.lastGood, period := some held }).setRequests
          (s.requests ++ [.fault .trunkCheck .nowhere])))
    ∧ (s.trunk.badRun = 2 → exec c s = .next ((s.setTrunk { s.trunk with
        sync := .hunt, goodRun := 0, badRun := 0, timing := .localClock
        presented := Vector.replicate 48 0, lastGood := Vector.replicate 48 0
        period := some .reinit }).setRequests (s.requests ++ [.fault .trunkSyncLoss .nowhere])))

/-- A good frame in LOCKED is taken (R144, R150, R152, R155, R157): its lanes are presented and become the
last good samples, its number, flag and PASS lanes are kept for the outgoing frame, and its cell field is
emptied with CELL_CHECK reported, free, consumed, or carried on. A COMMAND or DATA cell for this position
or for position 15 reaches the management engine, and no other cell changes it. -/
def Obligations.LockedFrameTaken : Prop :=
  ∀ (s : State) (bytes : List Byte) (f : TrunkFrame), s.trunk.sync = .locked →
    Arrival.judge bytes = .good f →
    let took (field : CellField) : State := s.setTrunk { s.trunk with
      badRun := 0, presented := f.lanes, lastGood := f.lanes, upstreamLost := f.upstreamLost
      period := some (.taken f.number f.upstreamLost f.lanes field) }
    let kind := (byteAt f.cell 0).toNat
    let address := (byteAt f.cell 1).toNat
    (f.cell.sum ≠ 0 → exec (.trunkArrival bytes) s =
      .next ((took .free).setRequests (s.requests ++ [.fault .cellCheck .nowhere])))
    ∧ (f.cell.sum = 0 →
        (kind = 0 → exec (.trunkArrival bytes) s = .next (took .free))
        ∧ (3 ≤ kind → exec (.trunkArrival bytes) s = .next (took (.carry f.cell)))
        ∧ (kind = 1 ∨ kind = 2 →
            (address = s.trunk.position.val →
              exec (.trunkArrival bytes) s = .next ((took .free).handCell f.cell))
            ∧ (address = 15 →
              exec (.trunkArrival bytes) s = .next ((took (.carry f.cell)).handCell f.cell))
            ∧ (address ≠ s.trunk.position.val → address ≠ 15 →
              exec (.trunkArrival bytes) s = .next (took (.carry f.cell)))))

/-- What the management engine does with a cell handed over (R157, R159, R167, R170). A COMMAND joins the
tail of a queue that holds fewer than 4; otherwise it is discarded and answered FULL, with its code, where
a reply entry is neither held nor reserved. A DATA cell joins an open load that expects a record, and the
deadline becomes the show clock plus 1,600; otherwise it is answered NO_LOAD where a reply entry is free. That
such a reply joins its queue before the free field of the same frame is filled is the model's choice (log 23). -/
def Obligations.CellsHandedOver : Prop :=
  ∀ (s : State) (cell : List Byte),
    let tag := byteAt cell 2
    let code := byteAt cell 3
    let params := parameters ((cell.drop 4).take 10)
    let taken := s.management.replies.length + if s.management.execution = .none then 0 else 1
    let replied (r : Reply) : State :=
      s.setManagement { s.management with replies := s.management.replies ++ [r] }
    ((byteAt cell 0).toNat = 1 →
      (s.management.commands.length < 4 → s.handCell cell = s.setManagement { s.management with
        commands := s.management.commands ++ [⟨tag, code, params⟩] })
      ∧ (4 ≤ s.management.commands.length → taken < 8 →
          s.handCell cell = replied ⟨tag, .full, false, code :: List.replicate 9 0⟩)
      ∧ (4 ≤ s.management.commands.length → 8 ≤ taken → s.handCell cell = s))
    ∧ ((byteAt cell 0).toNat = 2 →
      (∀ l, s.management.execution = .load l → l.expected ≠ 0 →
        s.handCell cell = s.setManagement { s.management with execution := .load { l with
          expected := l.expected - 1
          waiting := l.waiting ++ [Record.decode params]
          deadline := ⟨s.trunk.clock + 1600, false⟩ } })
      ∧ ((∀ l, s.management.execution = .load l → l.expected = 0) →
          (taken < 8 → s.handCell cell = replied ⟨tag, .noLoad, false, List.replicate 10 0⟩)
          ∧ (8 ≤ taken → s.handCell cell = s)))

/-! ### The station ports -/

/-- The state with port p replaced holds the new port and every other as before. Link reports of a port that is not
UP (R127, R128, R129): an UNUSED port ignores them; a good frame begins training, and the sixteenth in a row
makes the port UP, clears the lost marks of its members, sets the resync flag, stores the key bits without
edges, and puts the sample into the FIFO; a bad or missing frame sends the good run back to 0, and the eighth
ends the training. The frame that makes a DESK UP gives its message byte to the assembler. -/
def Obligations.LinkReportsOfPortsNotUp : Prop :=
  ∀ (s : State) (p : Port),
    (∀ r, s.ports[p].kind = .unused → exec (.linkReport p r) s = .next s)
    ∧ (s.ports[p].kind ≠ .unused → ∀ (b : List Byte) (u : Uplink), Uplink.read b = some u →
        let x := s.ports[p]
        (x.link = .down → exec (.linkReport p (.frame b)) s = .next (s.setPort p { x with
          link := .training, goodRun := 1, badRun := 0, keys := u.keys }))
        ∧ (x.link = .training → x.goodRun < 15 → exec (.linkReport p (.frame b)) s =
            .next (s.setPort p { x with goodRun := x.goodRun + 1, badRun := 0, keys := u.keys }))
        ∧ (x.link = .training → x.goodRun = 15 → x.fifo = [] → x.assembler = [] →
            exec (.linkReport p (.frame b)) s = .next ((s.setPort p { x with
              link := .up, goodRun := 16, badRun := 0, keys := u.keys, resync := true
              lastGood := u.sample, fifo := [u.sample]
              assembler := if x.kind = .desk ∧ u.start then [u.message] else [] }).setRequests
                (s.requests ++ [.lostMark p false]))))
    ∧ (s.ports[p].kind ≠ .unused → ∀ r, (r = .missing ∨ ∃ b, r = .frame b ∧ Uplink.read b = none) →
        let x := s.ports[p]
        (x.link = .down →
          exec (.linkReport p r) s = .next (s.setPort p { x with goodRun := 0, badRun := 0 }))
        ∧ (x.link = .training → x.badRun < 7 → exec (.linkReport p r) s =
            .next (s.setPort p { x with goodRun := 0, badRun := x.badRun + 1 }))
        ∧ (x.link = .training → x.badRun = 7 → exec (.linkReport p r) s =
            .next (s.setPort p { x with link := .down, goodRun := 0, badRun := 0, assembler := [] })))
    ∧ ∀ x : StationPort, s.setPort p x = s.setPorts (s.setPort p x).ports
        ∧ ∀ q : Port, (s.setPort p x).ports[q] = if q = p then x else s.ports[q]

/-- An uplink frame is good when its six bytes sum to 0 (R128, R191), and carries its sample in bytes 0 and 1, high
byte first, its keys in bits 0 to 6 of byte 2, a message byte and the start flag in bit 0 of byte 4 (12.2); that
a frame of another length is bad is the model's choice (log 17). Kinds 1 to 3 of a desk message are STANDBY, GO
and CANCEL of a circuit below 24, kinds 4 to 7 are GO NEXT, STANDBY NEXT, BACK and SKIP with circuit field 255,
another circuit field gives BAD_PARAM and another kind UNKNOWN (R123, R137, 12.3). A good frame of a port that
is UP (R128, R132, R133, R134, R136, R137). The sample joins the FIFO, the oldest being dropped with a slip when
8 are held. The edges of K1 to CALL are offered in key order while the resync flag is clear, and are admitted
below 28 queued events; the first that is not sets the flag and reports KEY_OVERRUN, and the later ones are not
offered. A press of ANSWER_A or ANSWER_B is an answer, whatever the flag. A DESK assembles the message byte; a
completed message with a good check is handed on, or answered UNKNOWN or BAD_PARAM when it reaches no block. No
other port and no other block changes. -/
def Obligations.GoodFrameOfAnUpPort : Prop :=
  (∀ b : List Byte, Uplink.read b =
    match b with
    | [b0, b1, b2, b3, b4, b5] =>
      if b0 + b1 + b2 + b3 + b4 + b5 = 0 then
        some ⟨BitVec.ofNat 16 (256 * b0.toNat + b1.toNat), BitVec.ofNat 7 b2.toNat, b3,
          decide (b4.toNat % 2 = 1)⟩
      else none
    | _ => none)
  ∧ (∀ n : Nat,
      let circuit (kind : Nat) (f : CircuitIx → DeskRequest) : Prop :=
        (∀ c : CircuitIx, n = c.val → DeskRequest.decode kind n = .ok (f c))
        ∧ (24 ≤ n → DeskRequest.decode kind n = .error .badParam)
      let list (kind : Nat) (r : DeskRequest) : Prop :=
        (n = 255 → DeskRequest.decode kind n = .ok r)
        ∧ (n ≠ 255 → DeskRequest.decode kind n = .error .badParam)
      circuit 1 .standby ∧ circuit 2 .go ∧ circuit 3 .cancel
        ∧ list 4 .goNext ∧ list 5 .standbyNext ∧ list 6 .back ∧ list 7 .skip
        ∧ ∀ kind : Nat, kind = 0 ∨ 7 < kind → DeskRequest.decode kind n = .error .unknown)
  ∧ ∀ (s : State) (p : Port) (b : List Byte) (u : Uplink), s.ports[p].kind ≠ .unused →
    s.ports[p].link = .up → Uplink.read b = some u →
    let x := s.ports[p]
    let changed : List KeyEvent :=
      ((List.finRange 5).filter fun k => x.keys.getLsbD k.val != u.keys.getLsbD k.val).map fun k =>
        if u.keys.getLsbD k.val then .press p k s.trunk.clock else .release p k s.trunk.clock
    let offered := if x.resync then [] else changed
    let room := 28 - s.walker.queue.length
    let overrun := decide (room < offered.length)
    let answers (bit : Nat) (l : CrewLamp) : List Request :=
      if !x.keys.getLsbD bit && u.keys.getLsbD bit then [.answer p l] else []
    let assembled : List Byte :=
      if x.kind ≠ .desk then x.assembler else if u.start then [u.message]
      else if x.assembler.length = 0 ∨ 3 ≤ x.assembler.length then [] else x.assembler ++ [u.message]
    let message : Option (List Byte) :=
      if x.kind = .desk ∧ u.start = false ∧ 3 ≤ x.assembler.length then some (x.assembler ++ [u.message])
      else none
    let desk : List Request × List (List Byte) :=
      match message with
      | none => ([], [])
      | some m =>
        if m.sum = 0 then
          match DeskRequest.decode (byteAt m 0).toNat (byteAt m 1).toNat with
          | .ok r => ([.desk p (byteAt m 2) true r], [])
          | .error status =>
            ([], if x.replies.length < 2 then [withSumCheck [0x80, byteAt m 2, byte status.code]] else [])
        else ([], [])
    ∃ t, exec (.linkReport p (.frame b)) s = .next t
      ∧ t.ports[p] = { x with
          goodRun := min (x.goodRun + 1) 16, badRun := 0, lastGood := u.sample, keys := u.keys
          fifo := if x.fifo.length < 8 then x.fifo ++ [u.sample] else x.fifo.tail ++ [u.sample]
          slips := if x.fifo.length < 8 then x.slips else min (x.slips + 1) 65535
          resync := x.resync || overrun, assembler := assembled, replies := x.replies ++ desk.2 }
      ∧ (∀ q : Port, q ≠ p → t.ports[q] = s.ports[q])
      ∧ t.walker = { s.walker with queue := s.walker.queue ++ offered.take room }
      ∧ t.requests = s.requests ++ (if overrun then [.fault .keyOverrun (.port p)] else [])
          ++ answers 5 .a ++ answers 6 .b ++ desk.1
      ∧ t.trunk = s.trunk ∧ t.group = s.group ∧ t.directory = s.directory ∧ t.xps = s.xps
      ∧ t.mixer = s.mixer ∧ t.circuits = s.circuits ∧ t.cueList = s.cueList
      ∧ t.management = s.management ∧ t.faultLog = s.faultLog ∧ t.pending = s.pending

/-- A bad or missing frame of a port that is UP (R128, R130, R132, R136): below a bad run of 8 a bad frame puts the
last good sample (runs 1 and 2) or 0 (runs 3 to 7) into the FIFO and a missing one puts nothing, and the desk
assembler becomes idle; the eighth drops the port, whose record is reset but for its kind, key bitmap, slip
counter and settings, the results of its desk requests in transit are to be discarded, the drop is handed on,
and a walk of the port in flight that has not decided is to be suppressed (R71, R131). The walker's row reset
follows the crosspoint set's removal. -/
def Obligations.LostFrameOfAnUpPort : Prop :=
  ∀ (s : State) (p : Port), s.ports[p].kind ≠ .unused → s.ports[p].link = .up →
    let x := s.ports[p]
    (x.badRun < 7 → exec (.linkReport p .missing) s = .next (s.setPort p { x with
      goodRun := 0, badRun := x.badRun + 1, assembler := [] }))
    ∧ (∀ b, Uplink.read b = none → x.badRun < 7 →
        let v := if x.badRun + 1 ≤ 2 then x.lastGood else 0
        exec (.linkReport p (.frame b)) s = .next (s.setPort p { x with
          goodRun := 0, badRun := x.badRun + 1, assembler := []
          fifo := if x.fifo.length < 8 then x.fifo ++ [v] else x.fifo.tail ++ [v]
          slips := if x.fifo.length < 8 then x.slips else min (x.slips + 1) 65535 }))
    ∧ (∀ r, (r = .missing ∨ ∃ b, r = .frame b ∧ Uplink.read b = none) → x.badRun = 7 →
        exec (.linkReport p r) s = .next (((s.setPort p { x with
          link := .down, goodRun := 0, badRun := 0, fifo := [], lastGood := 0, lastHanded := 0
          resync := false, assembler := [], replies := [] }).setRequests
            ((s.requests.map fun r => match r with
              | .desk q seq wanted d => .desk q seq (wanted && p != q) d
              | r => r) ++ [.removePortKeys p, .lostMark p true, .fault .portLost (.port p)])).suppress
                fun t => t.ofPort p))

/-- A port whose resync flag is set posts its STATE, with its whole bitmap and the show clock as its stamp,
when the queue holds fewer than 16 events, and its flag is cleared (R60); at 16 it keeps its flag. That the
post waits while a drop of the port is still to be taken is the model's choice (log 4). -/
def Obligations.StatePosts : Prop :=
  ∀ (s : State) (p : Port),
    (s.ports[p].resync = true → s.walker.queue.length < 16 → Request.removePortKeys p ∉ s.requests →
      Request.portRowReset p ∉ s.requests →
      exec (.statePost p) s = .next ((s.setPort p { s.ports[p] with resync := false }).withQueue
        (s.walker.queue ++ [.state p s.ports[p].keys s.trunk.clock])))
    ∧ (s.ports[p].resync = false ∨ 16 ≤ s.walker.queue.length → exec (.statePost p) s = .next s)


/-! ### Key events -/

/-- The state with one key entry replaced holds that entry and every other as before. A press that the walker takes
(R62, R64): from OFF, MISSED or REFUSED it clears swallow-release, stamps the key and calls for a walk; in HELD
it is ignored; in LATCHED the key is removed (R66) and the event is complete. The key leaves every slot, the
call counts of the key's call list are lowered once for each appearance, the list is emptied, and the key is OFF
with lamp OFF and swallow-release set. That the crosspoint set takes the remove key request within the step is
the model's reading of R73 (log 5). -/
def Obligations.KeyPressTaken : Prop :=
  (∀ (s : State) (p : Port) (k : Key) (e : KeyEntry) (j : Job),
    s.entry p k = (s.walker.keys[p])[k] ∧ s.setJob j = s.setWalker { s.walker with job := j }
    ∧ s.setEntry p k e = s.setWalker { s.walker with keys := (s.setEntry p k e).walker.keys }
    ∧ ∀ (q : Port) (i : Key), (s.setEntry p k e).entry q i = if q = p ∧ i = k then e else s.entry q i)
  ∧ ∀ (s : State) (p : Port) (k : Key) (stamp : Stamp) (rest : List KeyEvent),
    s.walker.queue = .press p k stamp :: rest → s.walkerReady → s.ports[p].link = .up →
    let e := s.entry p k
    (e.state = .off ∨ e.state = .missed ∨ e.state = .refused → exec .keyEventTake s =
      .next (((s.withQueue rest).setEntry p k { e with swallow := false, stamp := stamp }).setJob
        (.waiting (.key p k) false [])))
    ∧ (e.state = .held → exec .keyEventTake s = .next (s.withQueue rest))
    ∧ (e.state = .latched → ∃ calls : Vector Nat 16,
        (∀ q : Port, calls[q] = s.walker.calls[q] - e.calls.count q)
        ∧ exec .keyEventTake s = .next (((s.setXps (s.xps.remove fun o => o == .key p k)).setWalker
            { s.walker with queue := rest, calls := calls }).setEntry p k { e with
              state := .off, lamp := .off, swallow := true, calls := [] }))

/-- A release that the walker takes (R62, R65): it is absorbed by swallow-release; a HELD key is removed in
mode MOMENTARY, latched in mode LATCHING, and in mode AUTO latched when the two stamps lie fewer than 6,400
frames apart modulo 2^32 and removed otherwise; a MISSED or REFUSED key goes OFF; OFF and LATCHED stay. A
removal takes the key out of every slot, lowers the call counts of the key's call list once for each
appearance, empties the list and leaves the key OFF with lamp OFF (R66). That the crosspoint set takes the remove
key request within the step is the model's reading of R73 (log 5). -/
def Obligations.KeyReleaseTaken : Prop :=
  ∀ (s : State) (p : Port) (k : Key) (stamp : Stamp) (rest : List KeyEvent),
    s.walker.queue = .release p k stamp :: rest → s.walkerReady → s.ports[p].link = .up →
    let e := s.entry p k
    let entry (e' : KeyEntry) : State := (s.withQueue rest).setEntry p k e'
    let removed (t : State) : Prop := ∃ calls : Vector Nat 16,
      (∀ q : Port, calls[q] = s.walker.calls[q] - e.calls.count q)
      ∧ t = ((s.setXps (s.xps.remove fun o => o == .key p k)).setWalker
          { s.walker with queue := rest, calls := calls }).setEntry p k { e with
            state := .off, lamp := .off, calls := [] }
    (e.swallow = true → exec .keyEventTake s = .next (entry { e with swallow := false }))
    ∧ (e.swallow = false →
      (e.state = .held → e.mode = .momentary → ∃ t, exec .keyEventTake s = .next t ∧ removed t)
      ∧ (e.state = .held → e.mode = .latching →
          exec .keyEventTake s = .next (entry { e with state := .latched }))
      ∧ (e.state = .held → e.mode = .auto → (stamp - e.stamp).toNat < 6400 →
          exec .keyEventTake s = .next (entry { e with state := .latched }))
      ∧ (e.state = .held → e.mode = .auto → 6400 ≤ (stamp - e.stamp).toNat →
          ∃ t, exec .keyEventTake s = .next t ∧ removed t)
      ∧ (e.state = .missed ∨ e.state = .refused →
          exec .keyEventTake s = .next (entry { e with state := .off, lamp := .off }))
      ∧ (e.state = .off ∨ e.state = .latched → exec .keyEventTake s = .next (s.withQueue rest)))

/-- The other events that the walker takes (R62). The events of a port are its PRESS, RELEASE, STATE and RETRY. A
PRESS, RELEASE, STATE or RETRY of a port that is not UP, a CUE_OPEN of an IDLE circuit and a RETRY of a key
neither MISSED nor REFUSED leave the queue and change nothing else; any other CUE_OPEN or RETRY calls for a
walk; a STATE applies its keys. With nothing queued, with work in hand or during RAM initialisation no event is
taken. -/
def Obligations.EventsSkippedOrWalked : Prop :=
  (∀ (p : Port) (e : KeyEvent), e.ofPort p = true ↔ (∃ k stamp, e = .press p k stamp)
    ∨ (∃ k stamp, e = .release p k stamp) ∨ (∃ bitmap stamp, e = .state p bitmap stamp)
    ∨ ∃ k, e = .retry p k)
  ∧ ∀ s : State,
    (s.walker.queue = [] ∨ s.walker.job ≠ .idle ∨ s.directory.initialising = true →
      exec .keyEventTake s = .next s)
    ∧ ∀ (e : KeyEvent) (rest : List KeyEvent), s.walker.queue = e :: rest → s.walkerReady →
      (∀ p : Port, e.ofPort p = true → s.ports[p].link ≠ .up →
        exec .keyEventTake s = .next (s.withQueue rest))
      ∧ (∀ c, e = .cueOpen c → s.circuits[c].state = .idle →
          exec .keyEventTake s = .next (s.withQueue rest))
      ∧ (∀ c, e = .cueOpen c → s.circuits[c].state ≠ .idle → exec .keyEventTake s =
          .next ((s.withQueue rest).setJob (.waiting (.cue c) false [])))
      ∧ (∀ p k, e = .retry p k → s.ports[p].link = .up →
          ((s.entry p k).state = .missed ∨ (s.entry p k).state = .refused → exec .keyEventTake s =
            .next ((s.withQueue rest).setJob (.waiting (.key p k) true [])))
          ∧ ((s.entry p k).state ≠ .missed → (s.entry p k).state ≠ .refused →
              exec .keyEventTake s = .next (s.withQueue rest)))
      ∧ (∀ p bitmap stamp, e = .state p bitmap stamp → s.ports[p].link = .up →
          exec .keyEventTake s = .next ((s.withQueue rest).applyLevels
            ((List.finRange 5).map fun k => ⟨p, k, bitmap.getLsbD k.val, stamp⟩)))

/-- The keys of a STATE (R67), as they are applied in order. A key that is down calls for a walk where it is
OFF with swallow-release clear, and is not changed otherwise; a key that is up is released by its mode where
it is HELD, goes OFF where it is MISSED or REFUSED, and has swallow-release cleared where it is OFF or
LATCHED. A key that is removed leaves every slot and is OFF at once, its call counts lowered and its call list
empty (R66), and the next key follows; the first key that calls for a walk stops the rest, which stay in hand.
That the crosspoint set takes the remove key request within the step is the model's reading of R73 (log 5). -/
def Obligations.StateKeysApplied : Prop :=
  ∀ (s : State) (p : Port) (k : Key) (down : Bool) (stamp : Stamp) (rest : List KeyLevel),
    let e := s.entry p k
    let levels : List KeyLevel := ⟨p, k, down, stamp⟩ :: rest
    let then' (e' : KeyEntry) : State := (s.setEntry p k e').applyLevels rest
    let removed (t : State) : Prop := ∃ calls : Vector Nat 16,
      (∀ q : Port, calls[q] = s.walker.calls[q] - e.calls.count q)
      ∧ t = (((s.setXps (s.xps.remove fun o => o == .key p k)).setWalker
          { s.walker with calls := calls }).setEntry p k { e with
            state := .off, lamp := .off, calls := [] }).applyLevels rest
    s.applyLevels [] = s.setJob .idle
    ∧ (down = true →
        (e.state = .off → e.swallow = false → s.applyLevels levels =
          (s.setEntry p k { e with stamp := stamp }).setJob (.waiting (.key p k) false rest))
        ∧ (e.state ≠ .off ∨ e.swallow = true → s.applyLevels levels = s.applyLevels rest))
    ∧ (down = false →
        (e.state = .held →
          (e.mode = .momentary → removed (s.applyLevels levels))
          ∧ (e.mode = .latching → s.applyLevels levels = then' { e with state := .latched })
          ∧ (e.mode = .auto → (stamp - e.stamp).toNat < 6400 →
              s.applyLevels levels = then' { e with state := .latched })
          ∧ (e.mode = .auto → 6400 ≤ (stamp - e.stamp).toNat → removed (s.applyLevels levels)))
        ∧ (e.state = .missed ∨ e.state = .refused →
            s.applyLevels levels = then' { e with state := .off, lamp := .off })
        ∧ (e.state = .off ∨ e.state = .latched →
            s.applyLevels levels = then' { e with swallow := false }))

/-! ### Walks -/

/-- The key code of key k of port p is 16p + k, that of circuit c is 256 + c, and the home record is base + ((code ×
73) mod 1024) mod span (R48); a record's tag is a key or a circuit in range, and none otherwise. WALK_START
(R52, R68, R69, R70): a waiting walk that is granted the table port reads its chain from the home record of its
tag and has then read it; nothing else changes but table RAM's codes and poison marks and the reported faults.
One visit counts its place; a POISONED place, an uncorrectable error (which poisons it and is reported
RAM_POISONED) or a record that is not valid ends the reading; a one-bit error is reported RAM_CORRECTED and its
scrub is held. A valid record becomes the last valid place; a match is a hit while there are fewer than four,
then an ignored hit of which the first is noted, or, unarmed, the first unarmed match. NEXT = END or not below
the span ends the chain, the 16th place ends it at the chain limit, which is reported, and else the reading goes
on at base + NEXT. A whole reading visits 1 to 16 places of the region and changes no content. That errors of
the stored contents arrive with the command, that the reads are one step, and who is granted the free port are
the model's choices (logs 6, 7 and 8). -/
def Obligations.WalkReads : Prop :=
  (∀ (p : Port) (k : Key) (c : CircuitIx) (r : Record),
    (Tag.key p k).keyCode = p.val * 16 + k.val ∧ (Tag.cue c).keyCode = 256 + c.val
    ∧ (r.tag? = some (.key p k) ↔
        r.tagCue = false ∧ r.tagIndex.toNat = p.val ∧ r.tagKey.toNat = k.val)
    ∧ (r.tag? = some (.cue c) ↔ r.tagCue = true ∧ r.tagIndex.toNat = c.val ∧ r.tagKey.toNat = 0))
  ∧ (∀ (s : State) (upsets : Upsets) (tag : Tag) (retry : Bool) (rest : List KeyLevel) (home : Place),
    s.walker.job = .waiting tag retry rest → s.directory.initialising = false → s.directory.ram.wf →
    (s.directory.turn = .management → s.management.accessWaiting = false) →
    home.val = s.directory.region.base + (tag.keyCode * 73 % 1024) % s.directory.region.span →
    let d := s.directory
    let found := d.ram.upsetAll upsets
    let out := readChain tag d.region d.scene 15 found home
      ⟨home, 0, [], 0, none, none, none, .chainEnd, []⟩
    exec (.walkStart upsets) s =
      .next (((s.setDirectory { d with ram := out.2.1, turn := .either }).setJob
        (.walking ⟨tag, retry, out.1, .read, false, false⟩ rest)).setRequests
          (s.requests ++ out.2.2.map fun f => .fault f.1 f.2))
    ∧ (∀ i : Nat, (found.read i).content = (d.ram.read i).content
        ∧ (found.read i).poisoned = (d.ram.read i).poisoned
        ∧ ((∀ u ∈ upsets, u.1.val ≠ i) → found.read i = d.ram.read i))
    ∧ out.1.home = home ∧ 1 ≤ out.1.visited ∧ out.1.visited ≤ 16 ∧ out.1.hits.length ≤ 4
    ∧ (0 < out.1.ignored → out.1.hits.length = 4)
    ∧ (∀ h ∈ out.1.hits, h.content = (d.ram.read h.place.val).content
        ∧ (d.ram.read h.place.val).poisoned = false ∧ h.content.valid = true
        ∧ h.content.tag? = some tag ∧ h.content.scenes.getLsbD d.scene.val = true
        ∧ d.region.base ≤ h.place.val ∧ h.place.val < d.region.base + d.region.span)
    ∧ (∀ i : Nat, (out.2.1.read i).content = (d.ram.read i).content
        ∧ ((d.ram.read i).poisoned = true → (out.2.1.read i).poisoned = true)))
  ∧ ∀ (tag : Tag) (region : Region) (scene : Scene) (fuel : Nat) (m : TableRam) (i : Place) (a : Reading),
    let x := m.read i.val
    let r := x.content
    let visited : Reading := { a with visited := a.visited + 1 }
    let poisoned : Reading := { visited with ending := .poisoned i }
    let seen : Reading := if x.ecc = .oneBit then { visited with scrubs := a.scrubs ++ [i] } else visited
    let faults : List (FaultKind × Location) :=
      if x.ecc = .oneBit then [(.ramCorrected, .place i)] else []
    let noted : Reading :=
      if r.tag? ≠ some tag then { seen with lastValid := some i }
      else if r.scenes.getLsbD scene.val = false then
        { seen with lastValid := some i, firstUnarmed := a.firstUnarmed <|> some i }
      else if a.hits.length < 4 then { seen with lastValid := some i, hits := a.hits ++ [⟨i, r⟩] }
      else { seen with
        lastValid := some i, ignored := a.ignored + 1, firstIgnored := a.firstIgnored <|> some i }
    let chainEnds : Prop := r.next = 0xFFFF ∨ region.span ≤ r.next.toNat
    (x.poisoned = true → readChain tag region scene fuel m i a = (poisoned, m, []))
    ∧ (x.poisoned = false → x.ecc = .uncorrectable → readChain tag region scene fuel m i a =
        (poisoned, m.write i.val { x with poisoned := true }, [(.ramPoisoned, .place i)]))
    ∧ (x.poisoned = false → x.ecc ≠ .uncorrectable →
      (r.valid = false →
        readChain tag region scene fuel m i a = ({ seen with ending := .invalid i }, m, faults))
      ∧ (r.valid = true → chainEnds →
          readChain tag region scene fuel m i a = ({ noted with ending := .chainEnd }, m, faults))
      ∧ (r.valid = true → ¬ chainEnds →
          readChain tag region scene 0 m i a =
            ({ noted with ending := .chainLimit i }, m, faults ++ [(.chainLimit, .place i)])
          ∧ ∀ j : Place, j.val = region.base + r.next.toNat →
              let rest := readChain tag region scene fuel m j noted
              readChain tag region scene (fuel + 1) m i a = (rest.1, rest.2.1, faults ++ rest.2.2)))

/-- At the end of a walk the table port is released with the held scrubs, a waiting access being next, and the
walker goes on with the keys in hand (R53). When a port drops or a circuit enters IDLE, a walk for it that is in
flight and has not decided is marked to be suppressed, and nothing else changes (R71, R80, R96, R131). A walk
whose reading has ended and that may not act is suppressed (R71, R53): it is marked, its port is not UP, it is a
RETRY of a key neither MISSED nor REFUSED, or its circuit is IDLE. The table port is released with the held
scrubs, a waiting access being next, and the walker goes on with the keys in hand; no key entry, slot, call
count, notice or request changes. That the decision waits while a removal of the port or circuit is in transit,
and that the keys left of a STATE are gone on with though the port has dropped, are the model's choices (logs 4
and 20). -/
def Obligations.WalkSuppressed : Prop :=
  (∀ (s : State) (these : Tag → Bool),
    (∀ w rest, s.walker.job = .walking w rest → w.phase = .read → these w.tag = true →
      s.suppress these = s.setJob (.walking { w with suppressed := true } rest))
    ∧ ((∀ w rest, s.walker.job = .walking w rest → w.phase = .read → these w.tag = false) →
        s.suppress these = s))
  ∧ (∀ (t : Tag) (p : Port), t.ofPort p = true ↔ ∃ k, t = .key p k)
  ∧ (∀ m : Management, m.accessWaiting = true ↔ (∃ a, m.execution = .access a)
    ∨ ∃ l, m.execution = .load l ∧ l.waiting ≠ [])
  ∧ (∀ (s : State) (w : Walk) (rest : List KeyLevel), s.endWalk w rest =
      (s.setDirectory { s.directory with
        ram := w.reading.scrubs.foldl TableRam.scrub s.directory.ram
        turn := if s.management.accessWaiting then .management else .either }).applyLevels rest)
  ∧ (∀ (s : State) (tag : Tag), s.decisionHeld tag = true ↔ match tag with
      | .key p _ => Request.removePortKeys p ∈ s.requests ∨ Request.portRowReset p ∈ s.requests
      | .cue c => Request.removeCircuit c ∈ s.requests)
  ∧ ∀ (s : State) (w : Walk) (rest : List KeyLevel), s.walker.job = .walking w rest → w.phase = .read →
    (∀ p k, w.tag = .key p k → Request.removePortKeys p ∉ s.requests ∧
      Request.portRowReset p ∉ s.requests ∧ (w.suppressed = true ∨ s.ports[p].link ≠ .up
        ∨ w.retry = true ∧ (s.entry p k).state ≠ .missed ∧ (s.entry p k).state ≠ .refused)) →
    (∀ c, w.tag = .cue c → Request.removeCircuit c ∉ s.requests ∧
      (w.suppressed = true ∨ s.circuits[c].state = .idle)) →
    exec .walkEnd s = .next ((s.setDirectory { s.directory with
      ram := w.reading.scrubs.foldl TableRam.scrub s.directory.ram
      turn := if s.management.accessWaiting then .management else .either }).applyLevels rest)

/-- A walk that acts without a hit, its port not having dropped nor its circuit entered IDLE during its reading
(R72, R73, R74, R75): a key goes MISSED with lamp MISS and mode MOMENTARY, a circuit is not changed, and the
notice PATH_MISS is offered with the reason and the record index of the table of R75. That a drop or an entry to
IDLE before the grant, over at this moment, suppresses nothing is the model's reading (log 22). -/
def Obligations.WalkWithoutHits : Prop :=
  ∀ (s : State) (w : Walk) (rest : List KeyLevel), s.walker.job = .walking w rest →
    w.phase = .read → w.suppressed = false → s.decisionHeld w.tag = false → w.reading.hits = [] →
    let miss : MissReason × Place :=
      match w.reading.ending, w.reading.firstUnarmed with
      | .poisoned i, _ => (.poisoned, i)
      | .chainLimit i, _ => (.chainLimit, i)
      | .invalid i, none =>
        if w.reading.visited = 1 then (.emptyHome, i)
        else (.noMatch, w.reading.lastValid.getD w.reading.home)
      | .invalid i, some j => if w.reading.visited = 1 then (.emptyHome, i) else (.unarmed, j)
      | .chainEnd, some j => (.unarmed, j)
      | .chainEnd, none => (.noMatch, w.reading.lastValid.getD w.reading.home)
    let notice : NoticeBody :=
      .pathMiss w.tag miss.1 miss.2 w.reading.visited w.reading.ignored
    (∀ p k, w.tag = .key p k → s.ports[p].link = .up →
      (w.retry = true → (s.entry p k).state = .missed ∨ (s.entry p k).state = .refused) →
      exec .walkEnd s = .next (((s.setEntry p k { s.entry p k with
        state := .missed, lamp := .miss, mode := .momentary }).offer notice).endWalk w rest))
    ∧ (∀ c, w.tag = .cue c → s.circuits[c].state ≠ .idle →
      exec .walkEnd s = .next ((s.offer notice).endWalk w rest))

/-- A walk that acts with hits, its port not having dropped nor its circuit entered IDLE during its reading (R71,
R72, R73, R78): a key takes the mode of its first hit and is HELD before any install is sent; each CALL hit that
stands before the first install raises the call count of its port and joins the key's call list; a circuit's
walk changes no entry. The hits left wait for the crosspoint set in chain order; a key's walk whose hits are all
CALL succeeds and ends at once, its lamp ON or BUSY where a BUSY request was held, with EXCESS_HITS where hits
were ignored. A MODE code that is no mode, which no accepted record carries, counts as MOMENTARY, the model's
choice (log 13), and that a WALK_END begins the installs and another sets the outcome is its reading of the step
(log 6); that a drop or an entry to IDLE before the grant, over at this moment, suppresses nothing is its
reading too (log 22). -/
def Obligations.WalkBeginsInstalls : Prop :=
  ∀ (s : State) (w : Walk) (rest : List KeyLevel) (h : Hit) (hs : List Hit),
    s.walker.job = .walking w rest → w.phase = .read → w.suppressed = false → s.decisionHeld w.tag = false →
    w.reading.hits = h :: hs →
    (∀ (p : Port) (k : Key) (calls left : List Hit) (ports : List Port),
      w.tag = .key p k → s.ports[p].link = .up →
      (w.retry = true → (s.entry p k).state = .missed ∨ (s.entry p k).state = .refused) →
      h :: hs = calls ++ left →
      (calls.map fun x => (x.content.cls.toNat, Endpoint.decode x.content.dest))
        = ports.map (fun q => (3, some (.port q))) →
      (∀ x, left.head? = some x → x.content.cls.toNat ≠ 3) →
      ∃ counts : Vector Nat 16, (∀ q : Port, counts[q] = s.walker.calls[q] + ports.count q) ∧
        let held : KeyEntry := { s.entry p k with
          mode := (KeyMode.decode h.content.mode).getD .momentary, state := .held
          calls := (s.entry p k).calls ++ ports }
        let raised : State := s.setWalker { s.walker with calls := counts }
        let excess (t : State) : State :=
          match w.reading.firstIgnored with
          | some i => t.offer (.pathMiss w.tag .excessHits i w.reading.visited w.reading.ignored)
          | none => t
        (left ≠ [] → exec .walkEnd s = .next ((raised.setEntry p k held).setJob
          (.walking { w with phase := .making left (!ports.isEmpty) } rest)))
        ∧ (left = [] → exec .walkEnd s = .next ((excess (raised.setEntry p k { held with
            lamp := if w.busyHeld then .busy else .on })).endWalk w rest)))
    ∧ (∀ c, w.tag = .cue c → s.circuits[c].state ≠ .idle → exec .walkEnd s =
        .next (s.setJob (.walking { w with phase := .making (h :: hs) false } rest)))

/-- The outcome of a walk whose hits are made good (R73, R74, R76): a key with a success is HELD with lamp
ON, or BUSY where a BUSY request was held; a key whose every hit failed is REFUSED with lamp BUSY and
SLOT_EXHAUSTED is reported for its port; a circuit is never changed, and SLOT_EXHAUSTED is reported for it
when every hit failed. Hits ignored bring the notice EXCESS_HITS with the first of them. That the outcome is a
WALK_END of its own, after the last install, is the model's reading of the step (log 6). -/
def Obligations.WalkOutcomes : Prop :=
  ∀ (s : State) (w : Walk) (rest : List KeyLevel) (ok : Bool), s.walker.job = .walking w rest →
    w.phase = .making [] ok →
    let excess (t : State) : State :=
      match w.reading.firstIgnored with
      | some i => t.offer (.pathMiss w.tag .excessHits i w.reading.visited w.reading.ignored)
      | none => t
    (∀ p k, w.tag = .key p k →
      (ok = true → exec .walkEnd s = .next ((excess (s.setEntry p k { s.entry p k with
        state := .held, lamp := if w.busyHeld then .busy else .on })).endWalk w rest))
      ∧ (ok = false → exec .walkEnd s = .next ((excess ((s.setEntry p k { s.entry p k with
          state := .refused, lamp := .busy }).setRequests
            (s.requests ++ [.fault .slotExhausted (.port p)]))).endWalk w rest)))
    ∧ (∀ c, w.tag = .cue c →
      (ok = true → exec .walkEnd s = .next ((excess s).endWalk w rest))
      ∧ (ok = false → exec .walkEnd s = .next ((excess (s.setRequests
          (s.requests ++ [.fault .slotExhausted (.circuit c)]))).endWalk w rest)))

/-! ### The crosspoint set -/

/-- Where an install goes (R3 to R9), by its result. Two owners are the same when they are equal or are both
CONTROLLER, whatever their pin marks (R4), and owners pin their slot when one is a CUE or CONTROLLER with its
pin mark yes (R5). An install from channel to channel is refused and nothing changes (R3). Any other joins the
LIVE slot with its connection unless its owner is there or four owners are; with no such slot it takes the first
FREE slot from the replacement pointer up; with neither, a PRIORITY or CUE_CALL install replaces the connection
of the oldest unpinned TALK slot; any other fails. The slots other than the one named, and on a failure every
slot and the pointer, are as before; only an install into a FREE slot moves the pointer. -/
def Obligations.InstallTaken : Prop :=
  (∀ a b : Owner, a.same b = true ↔ a = b ∨ ∃ m n, a = .controller m ∧ b = .controller n)
  ∧ (∀ os : List Owner, pinnedBy os = true ↔ Owner.controller true ∈ os ∨ ∃ c, Owner.cue c ∈ os)
  ∧ (∀ (s : State) (r : Install) (m n : Channel), r.source = .channel m → r.dest = .channel n →
      s.install r = (s, .illegal))
  ∧ ∀ (s : State) (r : Install), s.xps.distinct →
    ¬ (∃ m n : Channel, r.source = .channel m ∧ r.dest = .channel n) →
    let fresh : Connection :=
      ⟨r.source, r.dest, r.cls, r.gain, [r.owner], pinnedBy [r.owner], s.trunk.clock⟩
    let x := s.xps
    let y := (s.install r).1.xps
    let others (i : SlotIx) : Prop := ∀ j : SlotIx, j ≠ i → y.slots[j] = x.slots[j]
    (∀ (i : SlotIx) (c : Connection), x.slots[i] = .live c → c.source = r.source → c.dest = r.dest →
      c.cls = r.cls → y.pointer = x.pointer ∧ others i ∧
      ((∃ o ∈ c.owners, o.same r.owner = true) →
          (s.install r).2 = .alreadyOwner i ∧ y.slots[i] = x.slots[i])
      ∧ ((∀ o ∈ c.owners, o.same r.owner = false) → 4 ≤ c.owners.length →
          (s.install r).2 = .fullOwners i ∧ y.slots[i] = x.slots[i])
      ∧ ((∀ o ∈ c.owners, o.same r.owner = false) → c.owners.length < 4 →
          (s.install r).2 = .merged i ∧ y.slots[i] = .live { c with
            owners := c.owners ++ [r.owner], pinned := pinnedBy (c.owners ++ [r.owner]) }))
    ∧ ((∀ (i : SlotIx) (c : Connection), x.slots[i] = .live c →
          ¬ (c.source = r.source ∧ c.dest = r.dest ∧ c.cls = r.cls)) →
      (∀ n : Fin 64, x.slots[x.pointer + n] = .free →
        (∀ m : Fin 64, m < n → x.slots[x.pointer + m] ≠ .free) →
        (s.install r).2 = .new (x.pointer + n) none ∧ y.slots[x.pointer + n] = .live fresh
          ∧ others (x.pointer + n) ∧ y.pointer = x.pointer + n + 1)
      ∧ ((∀ i : SlotIx, x.slots[i] ≠ .free) → y.pointer = x.pointer ∧
        (r.cls = .priority ∨ r.cls = .cueCall →
          (∀ (i : SlotIx) (c : Connection), x.slots[i] = .live c → c.cls = .talk → c.pinned = false →
            (∀ (j : SlotIx) (d : Connection), x.slots[j] = .live d → d.cls = .talk → d.pinned = false →
              (s.trunk.clock - d.stamp).toNat < (s.trunk.clock - c.stamp).toNat
                ∨ (d.stamp = c.stamp ∧ i ≤ j)) →
            (s.install r).2 = .new i (some i) ∧ y.slots[i] = .live fresh ∧ others i)
          ∧ ((∀ (i : SlotIx) (c : Connection), x.slots[i] = .live c → c.cls = .talk → c.pinned = true) →
              (s.install r).2 = .noSlot ∧ y.slots = x.slots))
        ∧ (r.cls ≠ .priority → r.cls ≠ .cueCall →
            (s.install r).2 = .noSlot ∧ y.slots = x.slots)))

/-- What goes with an install (R8, R10): the BUSY requests of the KEY owners of an evicted connection, and
one SLOT_FULL notice on an eviction, or when the last FREE slot was taken, with the counts after the change.
Any other install offers no notice and sends no request. No other block changes. A notice that any block offers
takes the sequence number as its tag, and the number gains one, 255 being followed by 0 (R164): below 16 queued
notices it joins the tail of the notice queue, and with 16 it is discarded and NOTICE_OVERRUN, with no location, is
reported; nothing else changes. -/
def Obligations.InstallNotices : Prop :=
  (∀ (s : State) (body : NoticeBody),
    let m := s.management
    (m.notices.length < 16 → s.offer body = s.setManagement { m with
      notices := m.notices ++ [⟨m.seq, body⟩], seq := BitVec.ofNat 8 ((m.seq.toNat + 1) % 256) })
    ∧ (16 ≤ m.notices.length → s.offer body = (s.setManagement { m with
        seq := BitVec.ofNat 8 ((m.seq.toNat + 1) % 256) }).setRequests
          (s.requests ++ [.fault .noticeOverrun .nowhere])))
  ∧ (∀ x : CrosspointSet,
      let number (test : Slot → Bool) : Nat := ((List.finRange 64).filter fun i => test x.slots[i]).length
      x.freeCount = number (fun v => v == .free) ∧ x.retiredCount = number (fun v => v == .retired)
        ∧ x.liveCount = number fun v => match v with
          | .live _ => true
          | .lockedOut | .free | .retired => false)
  ∧ ∀ (s : State) (r : Install),
    let t := (s.install r).1
    t.ports = s.ports ∧ t.trunk = s.trunk ∧ t.walker = s.walker ∧ t.directory = s.directory
      ∧ t.circuits = s.circuits ∧ t.cueList = s.cueList ∧ t.faultLog = s.faultLog ∧ t.mixer = s.mixer
      ∧ t.group = s.group ∧ t.pending = s.pending
    ∧ (∀ i, (s.install r).2 = .new i none →
        (t.xps.freeCount = 0 → t = (s.setXps t.xps).offer
          (.slotFull i t.xps.liveCount t.xps.retiredCount none))
        ∧ (t.xps.freeCount ≠ 0 → t = s.setXps t.xps))
    ∧ (∀ i j c, (s.install r).2 = .new i (some j) → s.xps.slots[j] = .live c → i = j ∧
        t = ((s.setXps t.xps).setRequests (s.requests ++ c.owners.filterMap fun o =>
          match o with
          | .key p k => some (.busyLamp p k)
          | .cue _ | .controller _ => none)).offer
            (.slotFull i t.xps.liveCount t.xps.retiredCount (some (c.source, c.dest, c.cls))))
    ∧ ((∀ i j, (s.install r).2 ≠ .new i j) → t = s.setXps t.xps)

/-- CROSSPOINT_INSTALL (R72, R78, R82): with the walk's next hit a connection to install, the crosspoint set
takes the install for the key or circuit of the walk, and the walk knows whether one succeeded; the CALL hits
that follow raise the call counts of their ports and join the key's call list, and the next hit to install, or
the outcome, comes after them. With no walk in flight, the install that an abandoned walk had sent is taken,
and nothing else happens. That installs are taken one at a time, and that an abandoned one may be taken or not,
are the model's readings (logs 6 and 9). -/
def Obligations.WalkInstallTaken : Prop :=
  ∀ s : State,
    (∀ (w : Walk) (rest : List KeyLevel) (h : Hit) (hs : List Hit) (ok : Bool) (src dst : Endpoint)
        (cls : SlotClass),
      s.walker.job = .walking w rest → w.phase = .making (h :: hs) ok →
      Endpoint.decode h.content.source = some src → Endpoint.decode h.content.dest = some dst →
      SlotClass.decode h.content.cls.toNat = some cls →
      let owner : Owner := match w.tag with | .key p k => .key p k | .cue c => .cue c
      let out := s.install ⟨src, dst, cls, h.content.gain.toNat, owner⟩
      let good : Bool := match out.2 with
        | .new _ _ | .merged _ | .alreadyOwner _ => true
        | .fullOwners _ | .noSlot | .illegal => false
      (∀ (p : Port) (k : Key) (calls left : List Hit) (ports : List Port), w.tag = .key p k →
        hs = calls ++ left →
        (calls.map fun x => (x.content.cls.toNat, Endpoint.decode x.content.dest))
          = ports.map (fun q => (3, some (.port q))) →
        (∀ x, left.head? = some x → x.content.cls.toNat ≠ 3) →
        ∃ counts : Vector Nat 16, (∀ q : Port, counts[q] = s.walker.calls[q] + ports.count q)
          ∧ exec .crosspointInstall s = .next (((out.1.setWalker { s.walker with
              calls := counts }).setEntry p k { s.entry p k with
                calls := (s.entry p k).calls ++ ports }).setJob
                  (.walking { w with phase := .making left (ok || good || !ports.isEmpty) } rest)))
      ∧ (∀ c, w.tag = .cue c → exec .crosspointInstall s =
          .next (out.1.setJob (.walking { w with phase := .making hs (ok || good) } rest))))
    ∧ (∀ r, s.walker.job.walk? = none → s.xps.abandoned = some r →
        exec .crosspointInstall s =
          .next ((s.install r).1.setXps { (s.install r).1.xps with abandoned := none }))
    ∧ ∀ (p : Port) (k : Key) (q : Port) (h : Hit) (hs : List Hit) (ok : Bool),
        h.content.cls.toNat = 3 → Endpoint.decode h.content.dest = some (.port q) →
        State.settleCalls (.key p k) (h :: hs) ok s =
          State.settleCalls (.key p k) hs true ((s.setWalker { s.walker with
            calls := put s.walker.calls q (s.walker.calls[q] + 1) }).setEntry p k { s.entry p k with
              calls := (s.entry p k).calls ++ [q] })

/-- An owner leaves the slots that list it (R11): other owners keep their order, source, destination,
class, gain and stamp are kept, the pinned flag is recomputed, and a slot left without owners is FREE. A slot
that does not list it is unchanged, and the replacement pointer does not move. -/
def Obligations.OwnersRemoved : Prop :=
  ∀ (x : CrosspointSet) (gone : Owner → Bool),
    (x.remove gone).pointer = x.pointer
    ∧ ∀ i : SlotIx,
      ((∀ c, x.slots[i] ≠ .live c) → (x.remove gone).slots[i] = x.slots[i])
      ∧ ∀ c, x.slots[i] = .live c →
        ((∀ o ∈ c.owners, gone o = false) → (x.remove gone).slots[i] = .live c)
        ∧ ((∃ o ∈ c.owners, gone o = true) → (∀ o ∈ c.owners, gone o = true) →
            (x.remove gone).slots[i] = .free)
        ∧ ((∃ o ∈ c.owners, gone o = true) → (∃ o ∈ c.owners, gone o = false) →
            ∃ left, (x.remove gone).slots[i] = .live { c with owners := left, pinned := pinnedBy left }
              ∧ left.Sublist c.owners ∧ ∀ o, o ∈ left ↔ o ∈ c.owners ∧ gone o = false)

/-- The removal requests that the crosspoint set takes (R12, R20, R21, R66, R96). REMOVE_KEY takes KEY(p, k) out of
every slot where the walker may take the event at the head of its queue, the port is UP and the event removes
that key: a press of it LATCHED, a release of it HELD that lets it go by its mode, or a STATE that removes it
before any other and before a walk; KEY_EVENT_TAKE then does what it would have done without it. In any other
state REMOVE_KEY changes nothing. That it is taken ahead of the event's own step or within it is the model's
reading (log 5). REMOVE_PORT_KEYS takes out the port's KEY owners, REMOVE_CIRCUIT the circuit's, and the soft
reset's request every KEY and CUE owner; the row reset of the port and the resets of the walker and the cue
engine follow. A walk in flight delays none of them, but that REMOVE_PORT_KEYS and REMOVE_CIRCUIT wait for the
installs that a walk of that port or circuit still has to send. Which requests follow, that a removal waits for
the installs of a walk that is making its hits good and for an install that an abandoned walk had sent, and that
the soft reset's request discards such an install, are the model's choices where the rules fix the order alone
(logs 4 and 9). -/
def Obligations.RemovalRequests : Prop :=
  ∀ s : State,
    (∀ (p : Port) (k : Key),
      let goes (k : Key) (stamp : Stamp) : Prop := (s.entry p k).state = .held
        ∧ ((s.entry p k).mode = .momentary
          ∨ (s.entry p k).mode = .auto ∧ 6400 ≤ (stamp - (s.entry p k).stamp).toNat)
      let due : Prop := s.walkerReady ∧ s.ports[p].link = .up ∧ ∃ e rest, s.walker.queue = e :: rest ∧
        ((∃ stamp, e = .press p k stamp ∧ (s.entry p k).state = .latched)
          ∨ (∃ stamp, e = .release p k stamp ∧ (s.entry p k).swallow = false ∧ goes k stamp)
          ∨ ∃ bitmap stamp, e = .state p bitmap stamp ∧ bitmap.getLsbD k.val = false ∧ goes k stamp
            ∧ ∀ j : Key, j < k →
              (bitmap.getLsbD j.val = true → (s.entry p j).state ≠ .off ∨ (s.entry p j).swallow = true)
              ∧ (bitmap.getLsbD j.val = false → ¬ goes j stamp))
      let removed : State := s.setXps (s.xps.remove fun o => o == .key p k)
      (due → exec (.removeKey p k) s = .next removed
        ∧ exec .keyEventTake removed = exec .keyEventTake s)
      ∧ (¬ due → exec (.removeKey p k) s = .next s))
    ∧ (∀ p : Port, Request.removePortKeys p ∈ s.requests →
        ((∀ w rest k h hs ok, s.walker.job = .walking w rest → w.tag = .key p k →
            w.phase ≠ .making (h :: hs) ok) →
          (∀ r k, s.xps.abandoned = some r → r.owner ≠ .key p k) →
          exec (.removePortKeys p) s = .next ((s.setXps (s.xps.remove fun o =>
            match o with
            | .key q _ => p == q
            | .cue _ | .controller _ => false)).setRequests
              (s.requests.erase (.removePortKeys p) ++ [.portRowReset p])))
        ∧ (∀ r k, s.xps.abandoned = some r → r.owner = .key p k →
            exec (.removePortKeys p) s = .next s)
        ∧ ∀ w rest k h hs ok, s.walker.job = .walking w rest → w.tag = .key p k →
            w.phase = .making (h :: hs) ok → exec (.removePortKeys p) s = .next s)
    ∧ (∀ c : CircuitIx, Request.removeCircuit c ∈ s.requests →
        ((∀ w rest h hs ok, s.walker.job = .walking w rest → w.tag = .cue c →
            w.phase ≠ .making (h :: hs) ok) →
          (∀ r, s.xps.abandoned = some r → r.owner ≠ .cue c) →
          exec (.removeCircuit c) s = .next ((s.setXps (s.xps.remove fun o => o == .cue c)).setRequests
            (s.requests.erase (.removeCircuit c))))
        ∧ (∀ r, s.xps.abandoned = some r → r.owner = .cue c →
            exec (.removeCircuit c) s = .next s)
        ∧ ∀ w rest h hs ok, s.walker.job = .walking w rest → w.tag = .cue c →
            w.phase = .making (h :: hs) ok → exec (.removeCircuit c) s = .next s)
    ∧ (Request.removeKeysAndCues ∈ s.requests →
        exec .removeKeysAndCues s = .next ((s.setXps { s.xps.remove (fun o =>
          match o with
          | .controller _ => false
          | .key _ _ | .cue _ => true) with abandoned := none }).setRequests
            (s.requests.erase .removeKeysAndCues ++ [.walkerReset, .circuitAbort])))

/-- BUSY lamp requests, the row of a dropped port and the walker's part of soft reset (R63, R73, R77, R78, R80, R81,
R82, R131). The lamp of a HELD or LATCHED key becomes BUSY, and a key OFF, MISSED or REFUSED ignores the
request, whatever walk waits or is in flight; only while a walk makes good the hits of this very key is it held.
A row reset is taken during any walk but one that makes good the hits of a key of that port, whose outcome it
awaits, and the walk goes on. At a row reset or a soft reset the five entries, or all eighty, take their initial
values; the call counts that the row's keys had raised are lowered once for each appearance, or every count is
0; and the row's events leave the queue, the others keeping their order. Where the walker's request is the last
of a SOFT RESET in execution, its reply DONE with the number of discarded commands is placed (R160, R174); that
the last request taken places it is the model's reading (log 9). -/
def Obligations.LampAndRowRequests : Prop :=
  (∀ (s : State) (p : Port) (k : Key), Request.busyLamp p k ∈ s.requests →
    let taken := s.setRequests (s.requests.erase (.busyLamp p k))
    let e := s.entry p k
    ((∀ w rest hs ok, s.walker.job = .walking w rest → w.tag = .key p k → w.phase ≠ .making hs ok) →
      (e.state = .held ∨ e.state = .latched → exec (.busyLampRequest p k) s =
        .next (taken.setEntry p k { e with lamp := .busy }))
      ∧ (e.state = .off ∨ e.state = .missed ∨ e.state = .refused →
          exec (.busyLampRequest p k) s = .next taken))
    ∧ (∀ w rest hs ok, s.walker.job = .walking w rest → w.tag = .key p k → w.phase = .making hs ok →
        exec (.busyLampRequest p k) s =
          .next (taken.setJob (.walking { w with busyHeld := true } rest))))
  ∧ ∀ s : State,
    (∀ p : Port, Request.portRowReset p ∈ s.requests →
      ((∀ w rest k hs ok, s.walker.job = .walking w rest → w.tag = .key p k →
          w.phase ≠ .making hs ok) →
        ∃ w, exec (.portRowReset p) s =
            .next ((s.setWalker w).setRequests (s.requests.erase (.portRowReset p)))
          ∧ (∀ k, w.entry p k = ⟨.off, .momentary, 0, false, .off, []⟩)
          ∧ (∀ q k, q ≠ p → w.entry q k = s.entry q k)
          ∧ (∀ q : Port, w.calls[q] = s.walker.calls[q]
              - ((List.finRange 5).map fun k => (s.entry p k).calls.count q).sum)
          ∧ w.queue = s.walker.queue.filter (fun e => !e.ofPort p) ∧ w.job = s.walker.job)
      ∧ ∀ w rest k hs ok, s.walker.job = .walking w rest → w.tag = .key p k → w.phase = .making hs ok →
          exec (.portRowReset p) s = .next s)
    ∧ (Request.walkerReset ∈ s.requests →
      ∃ w : Walker, (∀ p k, w.entry p k = ⟨.off, .momentary, 0, false, .off, []⟩)
        ∧ (∀ q : Port, w.calls[q] = 0) ∧ w.queue = s.walker.queue ∧ w.job = s.walker.job
        ∧ let t := (s.setWalker w).setRequests (s.requests.erase .walkerReset)
          ((∃ r ∈ s.requests.erase .walkerReset, r.ofReset = true) → exec .walkerReset s = .next t)
          ∧ ∀ n c rest, s.lastOfReset .walkerReset n c rest →
              exec .walkerReset s = .next (t.answered c rest ⟨.done, false, [BitVec.ofNat 8 n]⟩))

/-! ### Cue circuits -/

/-- The state with one circuit replaced holds it and every other as before. STANDBY(c) by the circuit's state (R87,
R88, R98, R99). From IDLE with members it enters STANDBY with the request's cue number, every answer cleared and
the lost marks kept, its deadline the timeout times 16,000 frames ahead, a CUE_OPEN posted below 32 queued
events and refused with QUEUE_FULL otherwise, and a CUE_EVENT offered; from IDLE without members it is refused;
in STANDBY, READY and LATE nothing changes; in GO the standby becomes pending, replacing a pending one. -/
def Obligations.StandbyRule : Prop :=
  (∀ (s : State) (c : CircuitIx) (x : Circuit), s.setCircuit c x = s.setCircuits (s.setCircuit c x).circuits
    ∧ ∀ b : CircuitIx, (s.setCircuit c x).circuits[b] = if b = c then x else s.circuits[b])
  ∧ ∀ (s : State) (c : CircuitIx) (cue : Option CueNumber),
    let x := s.circuits[c]
    (x.state = .idle → x.members = [] → s.standby c cue = (s, .emptyCircuit))
    ∧ (x.state = .idle → x.members ≠ [] →
        let x' : Circuit := { x with
          state := .standby, cue := cue, late := false, holdDeadline := none
          members := x.members.map fun m => { m with answered := false }
          standbyDeadline := if x.timeout = 0 then none
            else some ⟨s.trunk.clock + BitVec.ofNat 32 (x.timeout * 16000), false⟩ }
        let posted : State :=
          if s.walker.queue.length < 32 then
            (s.setCircuit c x').withQueue (s.walker.queue ++ [.cueOpen c])
          else (s.setCircuit c x').setRequests (s.requests ++ [.fault .queueFull (.circuit c)])
        s.standby c cue = (posted.offer (.cueEvent c .standby cue false s.trunk.clock), .done))
    ∧ (x.state = .standby ∨ x.state = .ready ∨ x.state = .late → s.standby c cue = (s, .done))
    ∧ (x.state = .go → s.standby c cue =
        (s.setCircuit c { x with pending := true, pendingCue := cue }, .done))

/-- GO(c) by the circuit's state (R92, R98, R104). Accepted in READY, and in STANDBY and LATE where the setup
permits GO without answer: the cue number it carries replaces the circuit's, the outcome ANSWERED,
LATE_ANSWERED or UNANSWERED goes to the front of the history, which keeps eight, the hold starts, a pending
standby is dropped and a CUE_EVENT is offered. Refused in every other case with nothing changed. -/
def Obligations.GoRule : Prop :=
  ∀ (s : State) (c : CircuitIx) (cue : Option CueNumber),
    let x := s.circuits[c]
    let number := match cue with | some n => some n | none => x.cue
    let went (kind : OutcomeKind) : State × Status :=
      ((s.setCircuit c { x with
        state := .go, cue := number, standbyDeadline := none
        holdDeadline := some ⟨s.trunk.clock + BitVec.ofNat 32 (x.hold * 1600), false⟩
        pending := false, pendingCue := none
        history := (⟨kind, number, s.trunk.clock⟩ :: x.history).take 8 }).offer
          (.cueEvent c .go number x.late s.trunk.clock), .done)
    (x.state = .ready → x.late = false → s.go c cue = went .answered)
    ∧ (x.state = .ready → x.late = true → s.go c cue = went .lateAnswered)
    ∧ (x.state = .standby ∨ x.state = .late → x.goUnanswered = true → s.go c cue = went .unanswered)
    ∧ (x.state = .standby ∨ x.state = .late → x.goUnanswered = false → s.go c cue = (s, .unanswered))
    ∧ (x.state = .idle → s.go c cue = (s, .notInStandby))
    ∧ (x.state = .go → s.go c cue = (s, .already))

/-- CANCEL(c) by the circuit's state (R94, R96, R98): in STANDBY, READY and LATE the outcome CANCELLED is put in the
history and the circuit enters IDLE; in GO it enters IDLE without a new outcome; in IDLE nothing changes; it is
accepted in every case. At the entry to IDLE the deadlines, the pending standby, the answers, the late marker
and the cue number are cleared, the lost marks kept, a CUE_EVENT with the number held just before is offered,
and the remove circuit request is sent, behind the requests in transit, and a walk of the circuit in flight that
has not decided is to be suppressed (R71). That the notice's late marker is already cleared is the model's
choice (log 12). -/
def Obligations.CancelRule : Prop :=
  (∀ (s : State) (r : Request), s.hand r = s.setRequests (s.requests ++ [r]))
  ∧ ∀ (s : State) (c : CircuitIx),
    let x := s.circuits[c]
    let idle (history : List Outcome) : State × Status :=
      (((((s.setCircuit c { x with
        state := .idle, members := x.members.map fun m => { m with answered := false }
        late := false, cue := none, standbyDeadline := none, holdDeadline := none
        pending := false, pendingCue := none, history := history }).offer
          (.cueEvent c .idle x.cue false s.trunk.clock)).hand (.removeCircuit c)).suppress fun t => t == .cue c), .done)
    (x.state = .standby ∨ x.state = .ready ∨ x.state = .late →
      s.cancel c = idle ((⟨.cancelled, x.cue, s.trunk.clock⟩ :: x.history).take 8))
    ∧ (x.state = .go → s.cancel c = idle x.history)
    ∧ (x.state = .idle → s.cancel c = (s, .done))

/-- Where cue and list requests come from (R86, R113, R123, R124, R137). A desk's request that is the oldest of
its port is carried out with cue number NONE where it names a circuit, and its result joins the reply buffer
of a port that is UP and holds fewer than two replies; it is discarded where the port has dropped since the
request was handed on (R130). The controller's CUE STANDBY, CUE GO, CUE CANCEL and
CUE NEXT do the same in every state of the show lock and answer the result, BAD_PARAM standing for a circuit
over 23 and for an unknown sub-request. That the requests of one port are taken in their order is the
model's reading (log 4), and that an unknown sub-request stands in its reply as it was received its choice
(log 21). -/
def Obligations.CueRequestsHandedOver : Prop :=
  (∀ (s : State) (p : Port) (seq : Byte) (wanted : Bool) (r : DeskRequest),
    s.firstDesk p = some (seq, wanted, r) ↔ ∃ before after,
      s.requests = before ++ .desk p seq wanted r :: after ∧ ∀ q w d, Request.desk p q w d ∉ before)
  ∧ (∀ (s : State) (p : Port) (seq : Byte) (wanted : Bool) (r : DeskRequest),
    s.firstDesk p = some (seq, wanted, r) →
    let u := s.setRequests (s.requests.erase (.desk p seq wanted r))
    let replied (out : State × Status) : State :=
      let y := out.1.ports[p]
      if wanted = true ∧ y.link = .up ∧ y.replies.length < 2 then
        out.1.setPort p { y with
          replies := y.replies ++ [withSumCheck [0x80, seq, byte out.2.code]] }
      else out.1
    (∀ c, r = .standby c → exec (.standbyRequest p c) s = .next (replied (u.standby c none)))
    ∧ (∀ c, r = .go c → exec (.goRequest p c) s = .next (replied (u.go c none)))
    ∧ (∀ c, r = .cancel c → exec (.cancelRequest p c) s = .next (replied (u.cancel c)))
    ∧ (r = .goNext → exec (.goNext p) s = .next (replied (u.goNext.1, u.goNext.2.status)))
    ∧ (r = .standbyNext →
        exec (.standbyNext p) s = .next (replied (u.standbyNext.1, u.standbyNext.2.status)))
    ∧ (r = .back → exec (.back p) s = .next (replied (u.back.1, u.back.2.status)))
    ∧ (r = .skip → exec (.skip p) s = .next (replied (u.skip.1, u.skip.2.status))))
  ∧ (∀ (s : State) (i : Instr) (code : Nat) (f : CircuitIx → State × Status) (c : Command)
      (rest : List Command), s.canRun code anyLock c rest →
      (i = .cueStandby ∧ code = 0x42 ∧ f = (fun x => s.standby x none)
        ∨ i = .cueGo ∧ code = 0x43 ∧ f = (fun x => s.go x none)
        ∨ i = .cueCancel ∧ code = 0x44 ∧ f = fun x => s.cancel x) →
      (∀ x : CircuitIx, (byteAt c.params 0).toNat = x.val →
        exec i s = .next ((f x).1.answered c rest (.bare (f x).2)))
      ∧ (24 ≤ (byteAt c.params 0).toNat → exec i s = .next (s.answered c rest (.bare .badParam))))
  ∧ ∀ (s : State) (c : Command) (rest : List Command), s.canRun 0x45 anyLock c rest →
      let sub := (byteAt c.params 0).toNat
      let reply (out : State × ListResult) : Host.Outcome State Fault Refusal :=
        .next (out.1.answered c rest ⟨out.2.status, false,
          [byteAt c.params 0, byte out.1.cueList.cursor, byte out.1.cueList.entries.length,
            match out.2.refusing with | some x => byte x.val | none => 0xFF]
          ++ cueBytes out.2.cue ++ bytesOf24 out.2.refused ++ [byte out.2.gone]⟩)
      (sub = 4 → exec .cueNext s = reply s.goNext)
      ∧ (sub = 5 → exec .cueNext s = reply s.standbyNext)
      ∧ (sub = 6 → exec .cueNext s = reply s.back)
      ∧ (sub = 7 → exec .cueNext s = reply s.skip)
      ∧ (sub < 4 ∨ 7 < sub → exec .cueNext s = reply (s, ⟨.badParam, none, none, 0, 0⟩))

/-- An answer that no lost mark of its port stands before (R84, R89, R90, R98, R106): each circuit in STANDBY or
LATE with the member, not lost, has its mark set, and becomes READY where the answer rule is then met, with the
late marker set from LATE and the deadline cleared; every other circuit is unchanged; each circuit that became
READY offers one CUE_EVENT, in circuit order. An answer behind a lost mark of its port waits: that one port's
news and answers are taken in their order is the model's reading (log 4). -/
def Obligations.AnswerTaken : Prop :=
  ∀ (s : State) (p : Port) (l : CrewLamp) (before after : List Request),
    s.requests = before ++ .answer p l :: after → Request.answer p l ∉ before →
    ((∃ lost, Request.lostMark p lost ∈ before) → exec (.answer p l) s = .next s)
    ∧ ((∀ lost, Request.lostMark p lost ∉ before) → ∃ v : Vector Circuit 24,
      (∀ c : CircuitIx,
        let x := s.circuits[c]
        let members := x.members.map fun m =>
          if m.port = p ∧ m.lamp = l ∧ m.lost = false then { m with answered := true } else m
        let met := match x.rule with
          | .all => ∀ m ∈ members, m.answered = true
          | .any => ∃ m ∈ members, m.answered = true
        let reached := ∃ m ∈ x.members, m.port = p ∧ m.lamp = l ∧ m.lost = false
        (x.state = .idle ∨ x.state = .ready ∨ x.state = .go → v[c] = x)
        ∧ (¬ reached → v[c] = x)
        ∧ (reached → ¬ met → x.state = .standby ∨ x.state = .late →
            v[c] = { x with members := members })
        ∧ (reached → met → x.state = .standby →
            v[c] = { x with members := members, state := .ready, late := false, standbyDeadline := none })
        ∧ (reached → met → x.state = .late →
            v[c] = { x with members := members, state := .ready, late := true, standbyDeadline := none }))
      ∧ exec (.answer p l) s = .next
          ((((List.finRange 24).filter fun c => s.circuits[c].state != v[c].state).map fun c =>
            NoticeBody.cueEvent c .ready v[c].cue v[c].late s.trunk.clock).foldl State.offer
              ((s.setCircuits v).setRequests (before ++ after))))

/-- The two timers of a circuit (R91, R95, R96): a circuit in STANDBY whose deadline the show clock has
reached becomes LATE with its answers kept; a circuit in GO whose hold deadline it has reached enters
STANDBY at once with the pending cue number where a standby is pending, posting no CUE_OPEN, and otherwise
IDLE with the remove circuit request sent and a walk of the circuit in flight that has not decided to be
suppressed (R71); one CUE_EVENT is offered in each case. That reaching a deadline
is marked at the frame start and acted on by the expiry is the model's choice (log 10), and that the IDLE
CUE_EVENT after a go hold carries the late marker false is its reading (log 12). -/
def Obligations.CueTimersExpire : Prop :=
  ∀ (s : State) (c : CircuitIx) (d : Deadline), d.reached = true →
    let x := s.circuits[c]
    (x.state = .standby → x.standbyDeadline = some d → exec (.standbyTimerExpiry c) s =
      .next ((s.setCircuit c { x with state := .late, standbyDeadline := none }).offer
        (.cueEvent c .late x.cue x.late s.trunk.clock)))
    ∧ (x.state = .go → x.holdDeadline = some d → x.pending = true → exec (.goHoldExpiry c) s =
        .next ((s.setCircuit c { x with
          state := .standby, cue := x.pendingCue, late := false, holdDeadline := none
          pending := false, pendingCue := none
          members := x.members.map fun m => { m with answered := false }
          standbyDeadline := if x.timeout = 0 then none
            else some ⟨s.trunk.clock + BitVec.ofNat 32 (x.timeout * 16000), false⟩ }).offer
              (.cueEvent c .standby x.pendingCue false s.trunk.clock)))
    ∧ (x.state = .go → x.holdDeadline = some d → x.pending = false → exec (.goHoldExpiry c) s =
        .next ((((s.setCircuit c { x with
          state := .idle, members := x.members.map fun m => { m with answered := false }
          late := false, cue := none, standbyDeadline := none, holdDeadline := none
          pending := false, pendingCue := none }).offer
            (.cueEvent c .idle x.cue false s.trunk.clock)).hand (.removeCircuit c)).suppress fun t => t == .cue c))

/-- Lost marks (R84, R106): when a port's news of going DOWN, or of coming UP, reaches the cue engine, the lost mark
of every member on that port is set, or cleared, in every circuit; answers and states are kept. With the news
of going DOWN, presses that the port had sent before it and that were not taken are not handed over. At soft
reset every circuit that is not IDLE enters IDLE with an outcome ABORTED, keeping its setup, history and
lost marks, and offers its CUE_EVENT in circuit order; no remove circuit request is sent (R107); where this is
the last request of a SOFT RESET in execution, its reply DONE is then placed (R160, R174). That news of one
port is taken in its order, that the last request taken places the reply, and that the CUE_EVENT of an aborted
circuit carries the late marker false, are the model's readings (logs 4, 9 and 12). -/
def Obligations.LostMarksAndAborts : Prop :=
  ∀ s : State,
    (∀ (p : Port) (lost : Bool) (before after : List Request),
      s.requests = before ++ .lostMark p lost :: after → (∀ b, Request.lostMark p b ∉ before) →
      exec (if lost then .lostMarkSet p else .lostMarkClear p) s =
        .next ((s.setCircuits (Vector.ofFn fun c => { s.circuits[c] with
          members := s.circuits[c].members.map fun m =>
            if m.port = p then { m with lost := lost } else m })).setRequests
              ((if lost then before.filter (fun r => match r with
                | .answer q _ => q != p
                | _ => true) else before) ++ after)))
    ∧ (Request.circuitAbort ∈ s.requests → ∃ u : State,
        u.circuits = Vector.ofFn (fun c =>
          if s.circuits[c].state = .idle then s.circuits[c] else { s.circuits[c] with
            state := .idle, late := false, cue := none, standbyDeadline := none, holdDeadline := none
            pending := false, pendingCue := none
            members := s.circuits[c].members.map fun m => { m with answered := false }
            history := (⟨.aborted, s.circuits[c].cue, s.trunk.clock⟩ :: s.circuits[c].history).take 8 })
        ∧ u = (s.setCircuits u.circuits).setRequests (s.requests.erase .circuitAbort)
        ∧ let t := (((List.finRange 24).filter fun c => s.circuits[c].state != .idle).map fun c =>
              NoticeBody.cueEvent c .idle s.circuits[c].cue false s.trunk.clock).foldl State.offer u
          ((∃ r ∈ s.requests.erase .circuitAbort, r.ofReset = true) → exec .circuitAbort s = .next t)
          ∧ ∀ n c rest, s.lastOfReset .circuitAbort n c rest →
              exec .circuitAbort s = .next (t.answered c rest ⟨.done, false, [BitVec.ofNat 8 n]⟩))

/-! ### The cue list -/

/-- The GO check permits READY, and STANDBY and LATE where the setup permits GO without answer, and refuses with
UNANSWERED, NOT_IN_STANDBY in IDLE and ALREADY in GO (R92, R93). The entries to GO and to STANDBY are those of R92
and R87. GO NEXT (R114, R115, R116, R120): refused LIST_END at the end of the list, and refused as a whole with
the reason of the lowest circuit whose GO check refuses, nothing changing. Otherwise every circuit of the
entry goes with the entry's cue number, the last-cue record is written, the cursor advances, the circuits of
an auto-standby entry now at the cursor receive STANDBY, and one CUE_EVENT is offered for each circuit whose
state changed, in circuit order. -/
def Obligations.GoNextRule : Prop :=
  (∀ (x : Circuit) (cue : Option CueNumber) (clock : Stamp),
    let number := match cue with | some n => some n | none => x.cue
    x.goCheck = (match x.state with
      | .ready => .done
      | .standby | .late => if x.goUnanswered then .done else .unanswered
      | .idle => .notInStandby
      | .go => .already)
    ∧ x.enterStandby cue clock = { x with
        state := .standby, cue := cue, late := false, holdDeadline := none
        members := x.members.map fun m => { m with answered := false }
        standbyDeadline := if x.timeout = 0 then none
          else some ⟨clock + BitVec.ofNat 32 (x.timeout * 16000), false⟩ }
    ∧ x.enterGo cue clock = { x with
        state := .go, cue := number, standbyDeadline := none
        holdDeadline := some ⟨clock + BitVec.ofNat 32 (x.hold * 1600), false⟩
        pending := false, pendingCue := none
        history := (⟨if x.state = .ready then (if x.late then .lateAnswered else .answered) else .unanswered,
          number, clock⟩ :: x.history).take 8 })
  ∧ ∀ s : State,
    let l := s.cueList
    (l.entries[l.cursor]? = none → s.goNext = (s, ⟨.listEnd, none, none, 0, 0⟩))
    ∧ ∀ e, l.entries[l.cursor]? = some e →
      (∀ c : CircuitIx, e.circuits.getLsbD c.val = true → s.circuits[c].goCheck ≠ .done →
        (∀ b : CircuitIx, b < c → e.circuits.getLsbD b.val = true → s.circuits[b].goCheck = .done) →
        s.goNext = (s, ⟨s.circuits[c].goCheck, some c, none, 0, 0⟩))
      ∧ ((∀ c : CircuitIx, e.circuits.getLsbD c.val = true → s.circuits[c].goCheck = .done) →
        let named := (List.finRange 24).filter fun c => e.circuits.getLsbD c.val
        let went (c : CircuitIx) : Circuit :=
          if e.circuits.getLsbD c.val then s.circuits[c].enterGo (some e.cue) s.trunk.clock
          else s.circuits[c]
        let next : Option CueEntry := match l.entries[l.cursor + 1]? with
          | some n => if n.auto then some n else none
          | none => none
        let warned (c : CircuitIx) : Bool := match next with
          | some n => n.circuits.getLsbD c.val
          | none => false
        let opened := (List.finRange 24).filter fun c =>
          warned c && (went c).state == .idle && !(went c).members.isEmpty
        let number : CueNumber := match next with | some n => n.cue | none => 0
        let after (c : CircuitIx) : Circuit :=
          if warned c then
            match (went c).state with
            | .idle => if (went c).members.isEmpty then went c
              else (went c).enterStandby (some number) s.trunk.clock
            | .standby | .ready | .late => went c
            | .go => { went c with pending := true, pendingCue := some number }
          else went c
        ∃ u : State, u.circuits = Vector.ofFn after
          ∧ u.cueList = { l with
              cursor := l.cursor + 1
              lastCue := some ⟨e.cue, (named.head?).getD 0, named.length, s.trunk.clock⟩ }
          ∧ u.walker = { s.walker with queue := s.walker.queue ++
              (opened.take (32 - s.walker.queue.length)).map .cueOpen }
          ∧ u.requests = s.requests ++ (opened.drop (32 - s.walker.queue.length)).map (fun c =>
              .fault .queueFull (.circuit c))
          ∧ u.ports = s.ports ∧ u.trunk = s.trunk ∧ u.group = s.group ∧ u.directory = s.directory
          ∧ u.xps = s.xps ∧ u.mixer = s.mixer ∧ u.management = s.management
          ∧ u.faultLog = s.faultLog ∧ u.pending = s.pending
          ∧ s.goNext.1 = (((List.finRange 24).filter fun c => s.circuits[c].state != (after c).state).map
              fun c => NoticeBody.cueEvent c (after c).state (after c).cue (after c).late
                s.trunk.clock).foldl State.offer u
          ∧ s.goNext.2.status = .done ∧ s.goNext.2.cue = some e.cue ∧ s.goNext.2.gone = named.length
          ∧ s.goNext.2.refusing = none
          ∧ ∀ c : CircuitIx, s.goNext.2.refused.getLsbD c.val =
              (warned c && (went c).state == .idle && (went c).members.isEmpty))

/-- STANDBY NEXT, BACK and SKIP (R116, R117, R118): STANDBY NEXT gives STANDBY with the entry's cue number to
every circuit of the entry, and is refused LIST_END at the end of the list and EMPTY_CIRCUIT when every
circuit refused; it moves no cursor and writes no last-cue record. BACK and SKIP move the cursor by one, or
are refused at the ends, and reach no circuit. -/
def Obligations.ListMovesRule : Prop :=
  ∀ s : State,
    let l := s.cueList
    (l.entries[l.cursor]? = none → s.standbyNext = (s, ⟨.listEnd, none, none, 0, 0⟩))
    ∧ (∀ e, l.entries[l.cursor]? = some e →
        let x (c : CircuitIx) : Circuit := s.circuits[c]
        let named (c : CircuitIx) : Bool := e.circuits.getLsbD c.val
        let opened := (List.finRange 24).filter fun c =>
          named c && (x c).state == .idle && !(x c).members.isEmpty
        let after (c : CircuitIx) : Circuit :=
          if named c then
            match (x c).state with
            | .idle => if (x c).members.isEmpty then x c
              else (x c).enterStandby (some e.cue) s.trunk.clock
            | .standby | .ready | .late => x c
            | .go => { x c with pending := true, pendingCue := some e.cue }
          else x c
        ∃ u : State, u.circuits = Vector.ofFn after
          ∧ u = ((s.setCircuits u.circuits).withQueue (s.walker.queue ++
              (opened.take (32 - s.walker.queue.length)).map .cueOpen)).setRequests
                (s.requests ++ (opened.drop (32 - s.walker.queue.length)).map fun c =>
                  .fault .queueFull (.circuit c))
          ∧ s.standbyNext.1 = (opened.map fun c =>
              NoticeBody.cueEvent c .standby (some e.cue) false s.trunk.clock).foldl State.offer u
          ∧ (∀ c : CircuitIx, s.standbyNext.2.refused.getLsbD c.val =
              (named c && (x c).state == .idle && (x c).members.isEmpty))
          ∧ ((∃ c : CircuitIx, named c = true ∧ ¬ ((x c).state = .idle ∧ (x c).members = [])) →
              s.standbyNext.2.status = .done ∧ s.standbyNext.2.cue = some e.cue)
          ∧ ((∀ c : CircuitIx, named c = true → (x c).state = .idle ∧ (x c).members = []) →
              s.standbyNext.2.status = .emptyCircuit ∧ s.standbyNext.2.cue = none))
    ∧ (l.cursor = 0 → s.back = (s, ⟨.listStart, none, none, 0, 0⟩))
    ∧ (0 < l.cursor →
        s.back = (s.setCueList { l with cursor := l.cursor - 1 }, ⟨.done, none, none, 0, 0⟩))
    ∧ (l.entries.length ≤ l.cursor → s.skip = (s, ⟨.listEnd, none, none, 0, 0⟩))
    ∧ (l.cursor < l.entries.length →
        s.skip = (s.setCueList { l with cursor := l.cursor + 1 }, ⟨.done, none, none, 0, 0⟩))

/-- CUE LIST TRUNCATE (R111) and CUE CURSOR (R119). A length over the present one is refused; an accepted
truncation drops the entries from the new length on, sets a cursor beyond it to it, keeps both last-cue
records and answers the length and the cursor; under LOCKED and FROZEN it is refused. CUE CURSOR, in every
state of the lock, clamps the position to the length with the CLAMPED mark, and answers the cursor before
and after. Neither reaches a circuit. -/
def Obligations.CueListTruncatedAndCursorSet : Prop :=
  (∀ (s : State) (c : Command) (rest : List Command), s.canRun 0x47 [.unlocked] c rest →
    let n := (byteAt c.params 0).toNat
    let l := s.cueList
    (l.entries.length < n →
      exec .cueListTruncate s = .next (s.answered c rest ⟨.badParam, false, []⟩))
    ∧ (n ≤ l.entries.length → exec .cueListTruncate s =
        .next ((s.setCueList ⟨l.entries.take n, if n < l.cursor then n else l.cursor, l.lastCue,
          l.beforeFault⟩).answered c rest
            ⟨.done, false, [byte n, byte (if n < l.cursor then n else l.cursor)]⟩)))
  ∧ (∀ (s : State) (c : Command) (rest : List Command), s.canRun 0x47 [.locked, .frozen] c rest →
      exec .cueListTruncate s = .next (s.answered c rest ⟨.locked, false, []⟩))
  ∧ ∀ (s : State) (c : Command) (rest : List Command), s.canRun 0x48 anyLock c rest →
      let n := (byteAt c.params 0).toNat
      let l := s.cueList
      (n ≤ l.entries.length → exec .cueCursor s = .next ((s.setCueList { l with cursor := n }).answered
        c rest ⟨.done, false, [byte l.cursor, byte n]⟩))
      ∧ (l.entries.length < n →
          exec .cueCursor s = .next ((s.setCueList { l with cursor := l.entries.length }).answered
            c rest ⟨.done, true, [byte l.cursor, byte l.entries.length]⟩))

/-- READ CUE LIST (R112): in every state of the show lock, an index over 127 is refused BAD_PARAM, an index
below the length answers the entry there, and any other answers no entry, each with the length and the
cursor; nothing else changes. READ LAST CUE (R122) answers the last-cue record, or the one before a fault,
with the cursor and the length, and a part over 1 is refused BAD_PARAM. The bytes of an entry or record that
is not there are the model's reading (log 13). -/
def Obligations.CueListRead : Prop :=
  (∀ (s : State) (c : Command) (rest : List Command), s.canRun 0x49 anyLock c rest →
    let i := (byteAt c.params 0).toNat
    let l := s.cueList
    (127 < i → exec .readCueList s = .next (s.answered c rest ⟨.badParam, false, []⟩))
    ∧ (∀ e, i ≤ 127 → l.entries[i]? = some e → exec .readCueList s = .next (s.answered c rest
        ⟨.done, false, bytes16 e.cue.val ++ bytesOf24 e.circuits ++ [if e.auto then 1 else 0,
          byte l.entries.length, byte l.cursor]⟩))
    ∧ (i ≤ 127 → l.entries.length ≤ i → exec .readCueList s = .next (s.answered c rest
        ⟨.done, false, [0xFF, 0xFF, 0xFF, 0xFF, 0xFF, 0xFF, byte l.entries.length, byte l.cursor]⟩)))
  ∧ ∀ (s : State) (c : Command) (rest : List Command), s.canRun 0x4A anyLock c rest →
      let part := (byteAt c.params 0).toNat
      let l := s.cueList
      let fields (r : Option LastCue) : List Byte := (match r with
        | some x => bytes16 x.cue.val ++ [byte x.lowest.val, byte x.count] ++ bytesOf32 x.stamp
        | none => [0xFF, 0xFF, 0xFF, 0, 0xFF, 0xFF, 0xFF, 0xFF])
        ++ [byte l.cursor, byte l.entries.length]
      (part = 0 → exec .readLastCue s = .next (s.answered c rest ⟨.done, false, fields l.lastCue⟩))
      ∧ (part = 1 → exec .readLastCue s =
          .next (s.answered c rest ⟨.done, false, fields l.beforeFault⟩))
      ∧ (1 < part → exec .readLastCue s = .next (s.answered c rest ⟨.badParam, false, []⟩))

/-- CUE LIST WRITE (R110): with the lock OPEN, an index below the length replaces the entry there and the
index equal to the length appends one; the cursor and both last-cue records are kept; the reply carries the
length and the cursor. An index over the length or over 127, a cue number over 9999, an empty circuit set and
an auto-standby value other than 0 and 1 are refused BAD_PARAM with nothing changed.
Under LOCKED and FROZEN it is refused LOCKED. -/
def Obligations.CueListWritten : Prop :=
  (∀ (s : State) (c : Command) (rest : List Command), s.canRun 0x46 [.locked, .frozen] c rest →
    exec .cueListWrite s = .next (s.answered c rest ⟨.locked, false, []⟩))
  ∧ ∀ (s : State) (c : Command) (rest : List Command), s.canRun 0x46 [.unlocked] c rest →
    let i := (byteAt c.params 0).toNat
    let number := (wordAt c.params 1).toNat
    let circuits := word24At c.params 3
    let auto := (byteAt c.params 6).toNat
    let l := s.cueList
    (l.entries.length < i ∨ 127 < i ∨ 9999 < number ∨ circuits = 0 ∨ 1 < auto →
      exec .cueListWrite s = .next (s.answered c rest ⟨.badParam, false, []⟩))
    ∧ (∀ n : CueNumber, n.val = number → circuits ≠ 0 → auto ≤ 1 → i ≤ 127 →
        let e : CueEntry := ⟨n, circuits, auto == 1⟩
        (i < l.entries.length → exec .cueListWrite s =
          .next ((s.setCueList { l with entries := l.entries.set i e }).answered c rest
            ⟨.done, false, [byte l.entries.length, byte l.cursor]⟩))
        ∧ (i = l.entries.length → exec .cueListWrite s =
          .next ((s.setCueList { l with entries := l.entries ++ [e] }).answered c rest
            ⟨.done, false, [byte (l.entries.length + 1), byte l.cursor]⟩)))

/-! ### Commands -/

/-- The commands that only read (R19, R105, R141, R172, R173): in every state of the show lock they answer fields of
one moment, laid out as in 12.5, an owner as its kind byte and the byte of its key, circuit or pin mark, and
change nothing but the queues; an index or a part out of range is refused BAD_PARAM. The bytes of an outcome
that is not there are the model's reading and that a place with no member is a byte of 0 is its choice (log 13). -/
def Obligations.ReadingCommands : Prop :=
  (∀ (p : Port) (k : Key) (c : CircuitIx) (pin : Bool), (Owner.key p k).bytes = [0, byte (8 * p.val + k.val)]
    ∧ (Owner.cue c).bytes = [1, byte c.val] ∧ (Owner.controller pin).bytes = [2, if pin then 1 else 0])
  ∧ (∀ (s : State) (c : Command) (rest : List Command), s.canRun 0x01 anyLock c rest →
    exec .identify s = .next (s.answered c rest ⟨.done, false,
      [0x24, 0x16, 1, byte (s.trunk.position.val
        + 8 * (match s.trunk.sync with | .hunt => 0 | .verify => 1 | .locked => 2)
        + 32 * (match s.trunk.timing with | .localClock => 0 | .trunk => 1)
        + 64 * (if s.trunk.upstreamLost then 1 else 0))]
      ++ bytesOf32 s.trunk.clock ++ [s.trunk.frameNumber, byte (s.directory.scene.val
        + 16 * (match s.management.lock with | .unlocked => 0 | .locked => 1 | .frozen => 2))]⟩))
  ∧ (∀ (s : State) (c : Command) (rest : List Command), s.canRun 0x11 anyLock c rest →
      let part := (byteAt c.params 1).toNat
      let done (ps : List Byte) : Host.Outcome State Fault Refusal :=
        .next (s.answered c rest ⟨.done, false, ps⟩)
      (∀ p : Port, (byteAt c.params 0).toNat = p.val →
        let x := s.ports[p]
        (part = 0 → exec .portStatus s = done ([byte x.kind.code, byte x.link.code, byte x.goodRun,
          byte x.badRun, byte x.fifo.length, if x.resync then 1 else 0] ++ bytes16 x.slips
            ++ bytes16 s.mixer.portClips[p]))
        ∧ (part = 1 → exec .portStatus s = done (bytes16 x.gate ++ [byte x.floor] ++ bytes16 x.master
            ++ bytes16 x.sidetone ++ bytes16 x.duck))
        ∧ (part = 2 → exec .portStatus s = done ((List.finRange 5).map (fun k =>
            byte ((s.entry p k).state.code + 8 * (s.entry p k).mode.code + 32 * (s.entry p k).lamp.code
              + 128 * if (s.entry p k).swallow then 1 else 0)) ++ bytes16 s.walker.calls[p]))
        ∧ (∀ n : Channel, part = 3 → (byteAt c.params 2).toNat = n.val →
            exec .portStatus s = done (byte n.val :: bytes16 s.mixer.channelClips[n])))
      ∧ (15 < (byteAt c.params 0).toNat ∨ 3 < part ∨ part = 3 ∧ 11 < (byteAt c.params 2).toNat →
          exec .portStatus s = .next (s.answered c rest ⟨.badParam, false, []⟩)))
  ∧ (∀ (s : State) (c : Command) (rest : List Command), s.canRun 0x25 anyLock c rest →
      let part := (byteAt c.params 1).toNat
      let done (ps : List Byte) : Host.Outcome State Fault Refusal :=
        .next (s.answered c rest ⟨.done, false, ps⟩)
      let counts := [0, 1, 2, 3].map fun code =>
        byte (s.xps.slots.toList.countP fun v => v.code == code)
      (∀ i : SlotIx, (byteAt c.params 0).toNat = i.val →
        (∀ x, s.xps.slots[i] = .live x →
          (part = 0 → exec .readSlot s = done ([2, byte x.cls.code, x.source.encode, x.dest.encode]
            ++ bytes16 x.gain ++ [if x.pinned then 1 else 0, byte x.owners.length]))
          ∧ (part = 2 → exec .readSlot s =
              done (bytesOf32 x.stamp ++ [byte s.xps.pointer.val] ++ counts))
          ∧ (part = 1 → exec .readSlot s = done
              ((x.owners.map Owner.bytes ++ List.replicate 4 [0xFF, 0]).take 4).flatten))
        ∧ ((∀ x, s.xps.slots[i] ≠ .live x) →
          (part = 0 → exec .readSlot s =
            done [byte s.xps.slots[i].code, 0xFF, 0xFF, 0xFF, 0, 0, 0, 0])
          ∧ (part = 1 → exec .readSlot s = done [0xFF, 0, 0xFF, 0, 0xFF, 0, 0xFF, 0])
          ∧ (part = 2 → exec .readSlot s = done ([0, 0, 0, 0, byte s.xps.pointer.val] ++ counts))))
      ∧ (63 < (byteAt c.params 0).toNat ∨ 2 < part →
          exec .readSlot s = .next (s.answered c rest ⟨.badParam, false, []⟩)))
  ∧ ∀ (s : State) (c : Command) (rest : List Command), s.canRun 0x41 anyLock c rest →
      let part := (byteAt c.params 1).toNat
      let done (ps : List Byte) : Host.Outcome State Fault Refusal :=
        .next (s.answered c rest ⟨.done, false, ps⟩)
      (∀ n : CircuitIx, (byteAt c.params 0).toNat = n.val →
        let x := s.circuits[n]
        let left (d : Option Deadline) : List Byte := match d with
          | some d => bytesOf32 (d.due - s.trunk.clock)
          | none => [0xFF, 0xFF, 0xFF, 0xFF]
        let cue (n : Option CueNumber) : List Byte := match n with
          | some n => bytes16 n.val
          | none => [0xFF, 0xFF]
        let marks (f : Member → Bool) : Nat := ((List.range 4).map fun j =>
          match x.members[j]? with | some m => if f m then 2 ^ j else 0 | none => 0).sum
        (part = 0 → exec .readCircuit s = done (
          ((x.members.map fun (m : Member) => byte (128 + (match m.lamp with | .a => 0 | .b => 16) + m.port.val))
            ++ [0, 0, 0, 0]).take 4
          ++ [match x.rule with | .all => 0 | .any => 1, byte x.timeout, byte x.hold,
            if x.goUnanswered then 1 else 0]))
        ∧ (part = 1 → x.members.length ≤ 4 → exec .readCircuit s = done (
          [byte ((match x.state with | .idle => 0 | .standby => 1 | .ready => 2 | .late => 3 | .go => 4)
            + 8 * (if x.late then 1 else 0) + 16 * (if x.pending then 1 else 0))] ++ cue x.cue
          ++ [byte (marks Member.answered + 16 * marks Member.lost)] ++ cue x.pendingCue))
        ∧ (2 ≤ part → part ≤ 9 → exec .readCircuit s = done (match x.history[part - 2]? with
            | some o => [byte o.kind.code] ++ cue o.cue ++ bytesOf32 o.stamp
            | none => [0, 0xFF, 0xFF, 0xFF, 0xFF, 0xFF, 0xFF]))
        ∧ (part = 10 → exec .readCircuit s = done (left x.standbyDeadline ++ left x.holdDeadline)))
      ∧ (23 < (byteAt c.params 0).toNat ∨ 10 < part →
          exec .readCircuit s = .next (s.answered c rest ⟨.badParam, false, []⟩))

/-- A table with one slot replaced holds it and every other as before. SLOT ENABLE and SLOT RETIRE with the lock
OPEN (R10, R14, R15). SLOT ENABLE moves the LOCKED_OUT slots of its range to FREE, leaves every other slot and
the pointer, and answers how many moved; a range outside the slots is refused. SLOT RETIRE moves the slot to
RETIRED, asks a BUSY lamp for each KEY owner of a LIVE one, offers EXHAUSTED when it was the last FREE slot, and
answers its state before and its owners. -/
def Obligations.SlotEnableAndRetire : Prop :=
  (∀ (v : Vector Slot 64) (i j : SlotIx) (x : Slot), (put v i x)[j] = if j = i then x else v[j])
  ∧ (∀ (s : State) (c : Command) (rest : List Command), s.canRun 0x20 [.unlocked] c rest →
    let first := (byteAt c.params 0).toNat
    let count := (byteAt c.params 1).toNat
    (63 < first ∨ count = 0 ∨ 64 < count ∨ 64 < first + count →
      exec .slotEnable s = .next (s.answered c rest ⟨.badParam, false, []⟩))
    ∧ (first ≤ 63 → 0 < count → count ≤ 64 → first + count ≤ 64 → ∃ x moved,
        exec .slotEnable s = .next ((s.setXps x).answered c rest ⟨.done, false, [byte moved]⟩)
        ∧ x.pointer = s.xps.pointer ∧ x.abandoned = s.xps.abandoned
        ∧ moved = ((List.finRange 64).filter fun i =>
            s.xps.slots[i] == .lockedOut && x.slots[i] == .free).length
        ∧ ∀ i : SlotIx,
          (first ≤ i.val → i.val < first + count → s.xps.slots[i] = .lockedOut → x.slots[i] = .free)
          ∧ ((i.val < first ∨ first + count ≤ i.val ∨ s.xps.slots[i] ≠ .lockedOut) →
              x.slots[i] = s.xps.slots[i])))
  ∧ ∀ (s : State) (c : Command) (rest : List Command), s.canRun 0x21 [.unlocked] c rest →
      (63 < (byteAt c.params 0).toNat →
        exec .slotRetire s = .next (s.answered c rest ⟨.badParam, false, []⟩))
      ∧ ∀ i : SlotIx, (byteAt c.params 0).toNat = i.val →
        let x : CrosspointSet := { s.xps with slots := put s.xps.slots i .retired }
        let free := x.slots.toList.countP fun v => v == .free
        let live := x.slots.toList.countP fun v => v.connection?.isSome
        let retired := x.slots.toList.countP fun v => v == .retired
        let done (t : State) (before : Byte) (owners : Nat) : Host.Outcome State Fault Refusal :=
          .next (t.answered c rest ⟨.done, false, [before, byte owners]⟩)
        (s.xps.slots[i] = .lockedOut → exec .slotRetire s = done (s.setXps x) 0 0)
        ∧ (s.xps.slots[i] = .free → free ≠ 0 → exec .slotRetire s = done (s.setXps x) 1 0)
        ∧ (s.xps.slots[i] = .free → free = 0 → exec .slotRetire s =
            done ((s.setXps x).offer (.slotFull i live retired none)) 1 0)
        ∧ (∀ y, s.xps.slots[i] = .live y → exec .slotRetire s =
            done ((s.setXps x).setRequests (s.requests ++ y.owners.filterMap fun o =>
              match o with
              | .key p k => some (.busyLamp p k)
              | .cue _ | .controller _ => none)) 2 y.owners.length)
        ∧ (s.xps.slots[i] = .retired → exec .slotRetire s = done s 3 0)

/-- The controller's connections (R11, R16, R17, R18). INSTALL CROSSPOINT, unless FROZEN, installs with the owner
CONTROLLER and its pin mark, a gain over 512 clamped with the CLAMPED mark, and answers the slot and the slot
evicted, or the failure; malformed endpoints, class CALL or no class, and channel to channel are refused with
BAD_PARAM, nothing else changing (R3). REMOVE CROSSPOINT, unless FROZEN, removes CONTROLLER alone and answers
the slot's state, or NOT_OWNER. SET GAIN, in every state of the lock, sets the gain of a LIVE slot, clamped to
512. That the failure replies of an INSTALL CROSSPOINT whose gain was clamped carry no CLAMPED mark is the
model's reading of R161 (log 19). -/
def Obligations.ControllerConnections : Prop :=
  (∀ (s : State) (c : Command) (rest : List Command), s.canRun 0x22 [.unlocked, .locked] c rest →
    let gain := (wordAt c.params 3).toNat
    (∀ src dst cls, Endpoint.decode (byteAt c.params 0) = some src →
      Endpoint.decode (byteAt c.params 1) = some dst →
      SlotClass.decode (byteAt c.params 2).toNat = some cls →
      let out := s.install ⟨src, dst, cls, if gain ≤ 512 then gain else 512,
        .controller (byteAt c.params 5 != 0)⟩
      let mark := decide (512 < gain)
      exec .installCrosspoint s = .next (out.1.answered c rest (match out.2 with
        | .new i none => ⟨.done, mark, [byte i.val, 0xFF]⟩
        | .new i (some j) => ⟨.done, mark, [byte i.val, byte j.val]⟩
        | .merged i | .alreadyOwner i => ⟨.done, mark, [byte i.val, 0xFF]⟩
        | .fullOwners i => ⟨.fullOwners, false, [byte i.val, 0xFF]⟩
        | .noSlot => ⟨.noSlot, false, [0xFF, 0xFF]⟩
        | .illegal => ⟨.badParam, false, []⟩)))
    ∧ (∀ m n : Channel, Endpoint.decode (byteAt c.params 0) = some (.channel m) →
        Endpoint.decode (byteAt c.params 1) = some (.channel n) →
        exec .installCrosspoint s = .next (s.answered c rest ⟨.badParam, false, []⟩))
    ∧ (Endpoint.decode (byteAt c.params 0) = none ∨ Endpoint.decode (byteAt c.params 1) = none
        ∨ SlotClass.decode (byteAt c.params 2).toNat = none →
        exec .installCrosspoint s = .next (s.answered c rest ⟨.badParam, false, []⟩)))
  ∧ (∀ (s : State) (c : Command) (rest : List Command), s.canRun 0x23 [.unlocked, .locked] c rest →
      (63 < (byteAt c.params 0).toNat →
        exec .removeCrosspoint s = .next (s.answered c rest ⟨.badParam, false, []⟩))
      ∧ ∀ i : SlotIx, (byteAt c.params 0).toNat = i.val →
        ((∀ x, s.xps.slots[i] = .live x → ∀ o ∈ x.owners, o.isController = false) →
          exec .removeCrosspoint s = .next (s.answered c rest ⟨.notOwner, false, []⟩))
        ∧ ∀ x, s.xps.slots[i] = .live x → (∃ o ∈ x.owners, o.isController = true) →
          let left := x.owners.filter fun o => !o.isController
          let set (v : Slot) : State := s.setXps { s.xps with slots := put s.xps.slots i v }
          (left = [] → exec .removeCrosspoint s =
            .next ((set .free).answered c rest ⟨.done, false, [1]⟩))
          ∧ (left ≠ [] → exec .removeCrosspoint s =
            .next ((set (.live { x with owners := left, pinned := pinnedBy left })).answered c rest
              ⟨.done, false, [2]⟩)))
  ∧ ∀ (s : State) (c : Command) (rest : List Command), s.canRun 0x24 anyLock c rest →
      let gain := (wordAt c.params 1).toNat
      (63 < (byteAt c.params 0).toNat →
        exec .setGain s = .next (s.answered c rest ⟨.badParam, false, []⟩))
      ∧ ∀ i : SlotIx, (byteAt c.params 0).toNat = i.val →
        ((∀ x, s.xps.slots[i] ≠ .live x) →
          exec .setGain s = .next (s.answered c rest ⟨.badParam, false, []⟩))
        ∧ ∀ x, s.xps.slots[i] = .live x → exec .setGain s = .next ((s.setXps { s.xps with
            slots := put s.xps.slots i (.live { x with gain := if gain ≤ 512 then gain else 512 }) }).answered
              c rest ⟨.done, decide (512 < gain), []⟩)

/-- The commands that reach table RAM (R45, R46, R47, R50, R51, R52, R56, R162), and the grant for which one waits.
Table RAM reads back what is written, a scrub writes the place back with a clean code, and an error that arises
is held in the code of its place. The region holds its base as a multiple of its span. A base and span name a
region by the checks of R46, BAD_PARAM before ALIGN. With the table port free an access is carried out at once;
with a walk in flight the command waits at the head of its queue, and the grant carries it out. DIRECTORY SETUP
and SELECT SCENE set the region or the scene and answer the old one; READ RECORD answers the place's record,
scrubs a one-bit error with RAM_CORRECTED reported, and answers POISONED for a poisoned place or, poisoning it,
for an uncorrectable error. A walk that waits when the access ends is the next to be granted, and until it has
been an access waits although no walk is in flight. That errors arrive with the command, and that the turn
between the two is held from one grant to the next, are the model's (logs 7 and 8). -/
def Obligations.TablePortCommands : Prop :=
  (∀ (m : TableRam) (i : Place) (x : RecordPlace) (u : Upset) (j : Nat), m.wf →
    (m.write i.val x).wf ∧ (m.write i.val x).read j = (if j = i.val then x else m.read j)
    ∧ (m.scrub i).read j = (if j = i.val then { m.read j with ecc := .clean } else m.read j)
    ∧ (m.upset (i, u)).read j = (if j = i.val then { m.read j with
        ecc := if u = .uncorrectable ∨ (m.read j).ecc = .uncorrectable then .uncorrectable else .oneBit }
      else m.read j)
    ∧ m.upsetAll [] = m ∧ ∀ us : Upsets, m.upsetAll ((i, u) :: us) = (m.upset (i, u)).upsetAll us)
  ∧ (∀ (a : Fin 16) (b : Fin 8) (c : Fin 4) (d : Fin 2),
      (Region.span64 a).base = 64 * a.val ∧ (Region.span64 a).span = 64
      ∧ (Region.span128 b).base = 128 * b.val ∧ (Region.span128 b).span = 128
      ∧ (Region.span256 c).base = 256 * c.val ∧ (Region.span256 c).span = 256
      ∧ (Region.span512 d).base = 512 * d.val ∧ (Region.span512 d).span = 512)
  ∧ (∀ base span : Nat,
    (span ∉ [64, 128, 256, 512] → Region.check base span = .error .badParam)
    ∧ (span ∈ [64, 128, 256, 512] →
      (1023 < base ∨ 1024 < base + span → Region.check base span = .error .badParam)
      ∧ (base ≤ 1023 → base + span ≤ 1024 → base % span ≠ 0 →
          Region.check base span = .error .align)
      ∧ (base + span ≤ 1024 → base % span = 0 →
          ∃ r, Region.check base span = .ok r ∧ r.base = base ∧ r.span = span)))
  ∧ ∀ (s : State) (c : Command) (rest : List Command) (upsets : Upsets),
    let ended (d : Directory) : Directory :=
      { d with turn := match s.walker.job with | .waiting .. => .walker | _ => .either }
    let carried (a : Access) (i : Instr) : Prop :=
      (∀ r, a = .setRegion r → exec i s =
        .next ((s.setDirectory (ended { s.directory with region := r })).answered c rest
          ⟨.done, false, bytes16 s.directory.region.base ++ bytes16 s.directory.region.span⟩))
      ∧ (∀ n, a = .setScene n → exec i s =
        .next ((s.setDirectory (ended { s.directory with scene := n })).answered c rest
          ⟨.done, false, [byte s.directory.scene.val]⟩))
      ∧ (∀ n : Place, a = .readRecord n →
        let m := s.directory.ram.upsetAll upsets
        let x := m.read n.val
        let inside := decide (s.directory.region.base ≤ n.val
          ∧ n.val < s.directory.region.base + s.directory.region.span)
        let standing : Byte := byte (128 * bit inside + 16 * (match s.directory.region.span with
          | 64 => 0 | 128 => 1 | 256 => 2 | _ => 3) + s.directory.region.base / 64)
        let result (m' : TableRam) (faults : List Request) (answer : Answer) : Prop :=
          exec i s = .next (((s.setDirectory (ended { s.directory with ram := m' })).setRequests
            (s.requests ++ faults)).answered c rest answer)
        (x.poisoned = true → result m [] ⟨.poisoned, false, []⟩)
        ∧ (x.poisoned = false → x.ecc = .clean →
            result m [] ⟨.done, false, x.content.encode ++ [standing]⟩)
        ∧ (x.poisoned = false → x.ecc = .oneBit →
            result (m.write n.val { x with ecc := .clean }) [.fault .ramCorrected (.place n)]
              ⟨.done, false, x.content.encode ++ [standing]⟩)
        ∧ (x.poisoned = false → x.ecc = .uncorrectable →
            result (m.write n.val { x with poisoned := true }) [.fault .ramPoisoned (.place n)]
              ⟨.poisoned, false, []⟩))
    let asks (i : Instr) (a : Access) : Prop :=
      (s.walker.job.walk? = none → (s.directory.turn = .walker → s.walker.job.isWaiting = false) →
        carried a i)
      ∧ (s.walker.job.walk? ≠ none ∨ (s.directory.turn = .walker ∧ s.walker.job.isWaiting = true) →
          exec i s = .next (s.setManagement { s.management with execution := .access a }))
    (s.canRun 0x30 [.unlocked] c rest → upsets = [] →
      (∀ r : Region, (wordAt c.params 0).toNat = r.base → (wordAt c.params 2).toNat = r.span →
        asks .directorySetup (.setRegion r))
      ∧ (∀ status, Region.check (wordAt c.params 0).toNat (wordAt c.params 2).toNat = .error status →
          exec .directorySetup s = .next (s.answered c rest ⟨status, false, []⟩)))
    ∧ (s.canRun 0x33 [.unlocked, .locked] c rest → upsets = [] →
      (∀ n : Scene, (byteAt c.params 0).toNat = n.val → asks .selectScene (.setScene n))
      ∧ (7 < (byteAt c.params 0).toNat →
          exec .selectScene s = .next (s.answered c rest ⟨.badParam, false, []⟩)))
    ∧ (s.canRun 0x32 anyLock c rest →
      (∀ n : Place, (wordAt c.params 0).toNat = n.val → asks (.readRecord upsets) (.readRecord n))
      ∧ (1023 < (wordAt c.params 0).toNat →
          exec (.readRecord upsets) s = .next (s.answered c rest ⟨.badParam, false, []⟩)))
    ∧ ∀ a, s.management.execution = .access a → s.management.commands = c :: rest →
        s.directory.initialising = false →
        (s.walker.job.walk? = none → (s.directory.turn = .walker → s.walker.job.isWaiting = false) →
          carried a (.tablePortGrant upsets))
        ∧ (s.walker.job.walk? ≠ none ∨ (s.directory.turn = .walker ∧ s.walker.job.isWaiting = true) →
            exec (.tablePortGrant upsets) s = .next s)

/-- Loads (R42, R43, R44, R166, R167, R168, R169). The checks of a VALID record are those of R42: its tag in range
and its class one that the tag may carry, a CALL to a PORT, known endpoints not both CHANNEL, a known MODE, and
NEXT at END or below the span. An accepted WRITE RECORDS opens a load and stays at the
head; a granted record that is VALID and fails the checks closes it with BAD_RECORD, and any other is stored
at the pointer with a clean code and no poison, its gain clamped to 512 where it is VALID; the last of count
records closes the load with DONE and the CLAMPED mark; the timer closes with TIMEOUT a load that still
expects a record, and reports LOAD_TIMEOUT. A closing reply carries the remaining count and the stop index.
That the timer acts on a deadline marked as reached at an earlier frame start is the model's choice (log 10). -/
def Obligations.Loads : Prop :=
  (∀ (r : Record) (region : Region),
    let kind (b : Byte) : Nat := b.toNat / 64
    let known (b : Byte) : Prop := (kind b = 0 ∧ b.toNat % 64 < 16) ∨ (kind b = 1 ∧ b.toNat % 64 < 48)
      ∨ (kind b = 2 ∧ b.toNat % 64 < 12)
    r.accepted region.span = true ↔
      (r.tagCue = false → r.tagIndex.toNat < 16 ∧ r.tagKey.toNat < 5 ∧ r.cls.toNat ≤ 3)
      ∧ (r.tagCue = true → r.tagIndex.toNat < 24 ∧ r.tagKey.toNat = 0 ∧ r.cls.toNat = 4)
      ∧ (r.cls.toNat = 3 → kind r.dest = 0)
      ∧ known r.source ∧ known r.dest ∧ ¬ (kind r.source = 2 ∧ kind r.dest = 2)
      ∧ r.mode.toNat < 3 ∧ (r.next = 0xFFFF ∨ r.next.toNat < region.span))
  ∧ (∀ (s : State) (c : Command) (rest : List Command), s.canRun 0x31 [.unlocked] c rest →
    let start := (wordAt c.params 0).toNat
    let count := (byteAt c.params 2).toNat
    (1023 < start ∨ count = 0 ∨ 64 < count ∨ 1024 < start + count →
      exec .writeRecords s = .next (s.answered c rest ⟨.badParam, false, []⟩))
    ∧ (start ≤ 1023 → 0 < count → count ≤ 64 → start + count ≤ 1024 → exec .writeRecords s =
        .next (s.setManagement { s.management with
          execution := .load ⟨start, count, count, 0, [], false, ⟨s.trunk.clock + 1600, false⟩⟩ })))
  ∧ ∀ (s : State) (c : Command) (rest : List Command) (l : Load),
      s.management.execution = .load l → s.management.commands = c :: rest →
      let closed (t : State) (l' : Load) (status : Status) (mark : Bool) : State :=
        t.answered c rest ⟨status, mark, byte (l'.count - l'.written) :: bytes16 (l'.start + l'.written)⟩
      (l.deadline.reached = true → 0 < l.expected → exec .loadTimerExpiry s =
        .next ((closed s l .timeout false).setRequests (s.requests ++ [.fault .loadTimeout .nowhere])))
      ∧ (l.deadline.reached = false ∨ l.expected = 0 → exec .loadTimerExpiry s = .next s)
      ∧ ∀ (r : Record) (more : List Record), l.waiting = r :: more →
        s.directory.initialising = false → s.walker.job.walk? = none →
        (s.directory.turn = .walker → s.walker.job.isWaiting = false) →
        let ended (d : Directory) : Directory :=
          { d with turn := match s.walker.job with | .waiting .. => .walker | _ => .either }
        let tooLoud := r.valid && decide (512 < r.gain.toNat)
        let stored : Record := if tooLoud then { r with gain := 512 } else r
        let l' : Load := { l with
          written := l.written + 1, waiting := more, clamped := l.clamped || tooLoud }
        let u := s.setDirectory (ended { s.directory with
          ram := s.directory.ram.write (l.start + l.written) ⟨stored, .clean, false⟩ })
        (r.valid = true → r.accepted s.directory.region.span = false → exec .recordWrite s =
          .next (closed (s.setDirectory (ended s.directory)) l .badRecord false))
        ∧ (r.valid = false ∨ r.accepted s.directory.region.span = true →
          (l.written + 1 = l.count → exec .recordWrite s = .next (closed u l' .done l'.clamped))
          ∧ (l.written + 1 ≠ l.count → exec .recordWrite s =
              .next (u.setManagement { s.management with execution := .load l' })))

/-- The show lock (R161, R176, R177). The three lock commands set the state by the table and answer it
before and after. A command that the lock refuses is answered LOCKED, before its parameters are looked at,
and changes nothing: under LOCKED those of setup, under FROZEN also the scene, connections, soft reset and the
two other lock commands. A code outside the catalogue is answered UNKNOWN in every state of the lock. While the
lock is FROZEN no step but a pin reset changes a directory record, the region, the scene, the cue list's
entries, a circuit setup, a port setup or the lane map, or clears a poison mark, and the lock stays FROZEN
(R178). -/
def Obligations.ShowLock : Prop :=
  (∀ (s : State) (c : Command) (rest : List Command) (code : Nat) (i : Instr),
    (s.canRun code [.locked, .frozen] c rest → (code, i) ∈ [(0x31, .writeRecords),
      (0x30, .directorySetup), (0x46, .cueListWrite), (0x47, .cueListTruncate), (0x40, .circuitSetup),
      (0x10, .portSetup), (0x12, .laneMap), (0x20, .slotEnable), (0x21, .slotRetire)] →
      exec i s = .next (s.answered c rest ⟨.locked, false, []⟩))
    ∧ (s.canRun code [.frozen] c rest → (code, i) ∈ [(0x33, .selectScene), (0x22, .installCrosspoint),
      (0x23, .removeCrosspoint), (0x02, .softReset), (0x60, .lockShow), (0x61, .unlockShow)] →
      exec i s = .next (s.answered c rest ⟨.locked, false, []⟩)))
  ∧ (∀ (s : State) (c : Command) (rest : List Command),
      let sets (next : LockState) (code : Nat) : State :=
        (s.setManagement { s.management with lock := next }).answered c rest
          ⟨.done, false, [byte s.management.lock.code, byte code]⟩
      (s.canRun 0x60 [.unlocked, .locked] c rest → exec .lockShow s = .next (sets .locked 1))
      ∧ (s.canRun 0x61 [.unlocked, .locked] c rest → exec .unlockShow s = .next (sets .unlocked 0))
      ∧ (s.canRun 0x62 anyLock c rest → exec .freezeShow s = .next (sets .frozen 2)))
  ∧ (∀ (s : State) (c : Command) (rest : List Command) (code : Nat), s.canRun code anyLock c rest →
      code ∉ [0x01, 0x02, 0x10, 0x11, 0x12, 0x20, 0x21, 0x22, 0x23, 0x24, 0x25, 0x30, 0x31, 0x32, 0x33,
        0x34, 0x40, 0x41, 0x42, 0x43, 0x44, 0x45, 0x46, 0x47, 0x48, 0x49, 0x4A, 0x50, 0x51, 0x60, 0x61,
        0x62] →
      exec .unknownCommand s = .next (s.answered c rest ⟨.unknown, false, []⟩))
  ∧ ∀ (s t : State) (c : Instr) (rest : List Instr), s.pending = c :: rest →
      (∀ straps, c ≠ .pinReset straps) → s.management.lock = .frozen → s.lockSound →
      s.directory.ram.wf → step s = .next t →
      t.management.lock = .frozen ∧ t.directory.region = s.directory.region
        ∧ t.directory.scene = s.directory.scene
        ∧ (∀ i : Nat, (t.directory.ram.read i).content = (s.directory.ram.read i).content
            ∧ ((s.directory.ram.read i).poisoned = true → (t.directory.ram.read i).poisoned = true))
        ∧ t.cueList.entries = s.cueList.entries ∧ t.trunk.laneMap = s.trunk.laneMap
        ∧ (∀ p : Port, t.ports[p].setup = s.ports[p].setup)
        ∧ ∀ n : CircuitIx, t.circuits[n].setup = s.circuits[n].setup

/-- Setting up (R79, R85, R140, R151). PORT SETUP of a port kept in its kind replaces the settings, clamped with the
CLAMPED mark, and of one that is DOWN its kind too; a port that is UP and changes its kind drops first, a walk
of it in flight that has not decided being suppressed (R71, R131); a kind that is none of the five is refused
BAD_PARAM. LANE MAP replaces the whole map and answers the OWNED counts. CIRCUIT SETUP replaces the setup of an
IDLE circuit, each lost mark taken from its port, a hold of 0 clamped to 1, and answers CIRCUIT_BUSY otherwise;
a circuit over 23, a member of no known lamp or twice in the list, an unknown answer rule and an unknown GO
without answer are refused BAD_PARAM. RETRY KEY queues a RETRY for a MISSED or REFUSED key, and answers NOT_HELD
or FULL otherwise. -/
def Obligations.SetupCommands : Prop :=
  (∀ (s : State) (c : Command) (rest : List Command), s.canRun 0x10 [.unlocked] c rest →
    (80 ≤ (byteAt c.params 0).toNat →
      exec .portSetup s = .next (s.answered c rest ⟨.badParam, false, []⟩))
    ∧ ∀ (p : Port) (kind : PortKind), (byteAt c.params 0).toNat = p.val + 16 * kind.code →
      let gate := (wordAt c.params 1).toNat
      let floor := (byteAt c.params 3).toNat
      let master := (wordAt c.params 4).toNat
      let sidetone := (wordAt c.params 6).toNat
      let duck := (wordAt c.params 8).toNat
      let mark := decide (1023 < gate ∨ 256 < master ∨ 256 < sidetone ∨ 256 < duck)
      let settled (x : StationPort) : StationPort := { x with
        kind := kind, gate := min gate 1023, floor := floor, master := min master 256
        sidetone := min sidetone 256, duck := min duck 256 }
      let x := s.ports[p]
      (x.kind = kind ∨ x.link = .down → exec .portSetup s =
        .next ((s.setPort p (settled x)).answered c rest ⟨.done, mark, [byte x.link.code]⟩))
      ∧ (x.kind ≠ kind → x.link = .training → exec .portSetup s =
          .next ((s.setPort p (settled { x with
            link := .down, goodRun := 0, badRun := 0, assembler := [] })).answered c rest
              ⟨.done, mark, [0]⟩))
      ∧ (x.kind ≠ kind → x.link = .up → exec .portSetup s =
          .next ((((s.setPort p (settled { x with
            link := .down, goodRun := 0, badRun := 0, fifo := [], lastGood := 0, lastHanded := 0
            resync := false, assembler := [], replies := [] })).setRequests
              ((s.requests.map fun r => match r with
                | .desk q seq wanted d => .desk q seq (wanted && p != q) d
                | r => r) ++ [.removePortKeys p, .lostMark p true, .fault .portLost (.port p)])).suppress fun t =>
                t.ofPort p).answered c rest ⟨.done, mark, [0]⟩)))
  ∧ (∀ (s : State) (c : Command) (rest : List Command), s.canRun 0x12 [.unlocked] c rest →
      ∃ v : Vector LaneUse 48,
        (∀ n : Lane, v[n] = if (byteAt c.params (n.val / 8)).getLsbD (n.val % 8) then .owned else .pass)
        ∧ exec .laneMap s = .next ((s.setTrunk { s.trunk with laneMap := v }).answered c rest
            ⟨.done, false, [byte (s.trunk.laneMap.toList.count .owned), byte (v.toList.count .owned)]⟩))
  ∧ (∀ ps : List Byte,
      let present := [byteAt ps 1, byteAt ps 2, byteAt ps 3, byteAt ps 4].filter fun b => b.getLsbD 7
      let lamp (b : Byte) : Nat := b.toNat / 16 % 4
      let member (b : Byte) : Port × CrewLamp :=
        (⟨b.toNat % 16, by omega⟩, if lamp b = 0 then .a else .b)
      ((∃ b ∈ present, 2 ≤ lamp b) → membersDecode ps = none)
      ∧ ((∀ b ∈ present, lamp b < 2) → membersDecode ps =
          if (present.map member).Nodup then some (present.map member) else none))
  ∧ (∀ (s : State) (c : Command) (rest : List Command), s.canRun 0x40 [.unlocked] c rest →
      (23 < (byteAt c.params 0).toNat ∨ membersDecode c.params = none ∨ 1 < (byteAt c.params 5).toNat
          ∨ 1 < (byteAt c.params 8).toNat →
        exec .circuitSetup s = .next (s.answered c rest ⟨.badParam, false, []⟩))
      ∧ ∀ (n : CircuitIx) (ms : List (Port × CrewLamp)) (rule : AnswerRule) (go : Bool),
        (byteAt c.params 0).toNat = n.val → membersDecode c.params = some ms →
        (byteAt c.params 5).toNat = rule.code → (byteAt c.params 8).toNat = (if go then 1 else 0) →
        let hold := (byteAt c.params 7).toNat
        (s.circuits[n].state = .idle → exec .circuitSetup s =
          .next ((s.setCircuit n { s.circuits[n] with
            members := ms.map fun m =>
              ⟨m.1, m.2, false, decide (s.ports[m.1].link ≠ .up)⟩
            rule := rule, timeout := (byteAt c.params 6).toNat
            hold := if hold = 0 then 1 else hold, goUnanswered := go }).answered c rest
              ⟨.done, decide (hold = 0), []⟩))
        ∧ (s.circuits[n].state ≠ .idle →
            exec .circuitSetup s = .next (s.answered c rest ⟨.circuitBusy, false, []⟩)))
  ∧ ∀ (s : State) (c : Command) (rest : List Command), s.canRun 0x34 anyLock c rest →
      (∀ (p : Port) (k : Key), (byteAt c.params 0).toNat = p.val → (byteAt c.params 1).toNat = k.val →
        let failed := (s.entry p k).state = .missed ∨ (s.entry p k).state = .refused
        (failed → s.walker.queue.length < 32 → exec .retryKey s =
          .next ((s.withQueue (s.walker.queue ++ [.retry p k])).answered c rest ⟨.done, false, []⟩))
        ∧ (failed → 32 ≤ s.walker.queue.length →
            exec .retryKey s = .next (s.answered c rest ⟨.full, false, []⟩))
        ∧ (¬ failed → exec .retryKey s = .next (s.answered c rest ⟨.notHeld, false, []⟩)))
      ∧ (15 < (byteAt c.params 0).toNat ∨ 4 < (byteAt c.params 1).toNat →
          exec .retryKey s = .next (s.answered c rest ⟨.badParam, false, []⟩))

/-- The requests of a soft reset are those to the crosspoint set, the walker, the cue engine and the 16 ports. SOFT
RESET, unless FROZEN (R82, R142, R174). It discards the commands behind it, empties the key event
queue, abandons the walk in flight, releasing the table port with its held scrubs, and hands its requests to
the crosspoint set and the station ports; each port that is UP then sets its resync flag, and the reply DONE
with the number discarded is placed when the last request has been taken. Replies, notices, the fault log,
the cue list, the lock, the slots, the key entries and the circuits are not changed by its start. Which
blocks take their requests after which is the model's choice where the rules leave it (log 9): the walker's or
the cue engine's request may be the last as well, and the reply is then placed in the same way. -/
def Obligations.SoftReset : Prop :=
  (∀ r : Request, r.ofReset = true ↔ r = .removeKeysAndCues ∨ r = .walkerReset ∨ r = .circuitAbort
    ∨ ∃ p, r = .portResync p)
  ∧ (∀ (s : State) (c : Command) (rest : List Command), s.canRun 0x02 [.unlocked, .locked] c rest →
    ∃ t, exec .softReset s = .next t
      ∧ t.management = { s.management with commands := [c], execution := .softReset rest.length }
      ∧ t.walker.queue = [] ∧ t.walker.job = .idle ∧ t.walker.keys = s.walker.keys
      ∧ t.walker.calls = s.walker.calls ∧ t.xps.slots = s.xps.slots ∧ t.xps.pointer = s.xps.pointer
      ∧ (s.walker.job.walk? = none → t.directory.ram = s.directory.ram ∧ t.xps.abandoned = none)
      ∧ (∀ w, s.walker.job.walk? = some w →
          t.directory.ram = w.reading.scrubs.foldl TableRam.scrub s.directory.ram)
      ∧ t.directory.region = s.directory.region ∧ t.directory.scene = s.directory.scene
      ∧ t.requests = s.requests ++ .removeKeysAndCues :: (List.finRange 16).map .portResync
      ∧ t.trunk = s.trunk ∧ t.ports = s.ports ∧ t.group = s.group ∧ t.mixer = s.mixer
      ∧ t.circuits = s.circuits ∧ t.cueList = s.cueList ∧ t.faultLog = s.faultLog
      ∧ t.pending = s.pending)
  ∧ (∀ (s : State) (p : Port), Request.portResync p ∈ s.requests →
      let requests := s.requests.erase (.portResync p)
      let u : State := (if s.ports[p].link = .up then
        s.setPort p { s.ports[p] with resync := true } else s).setRequests requests
      ((∃ r ∈ requests, r.ofReset = true) → exec (.portResync p) s = .next u)
      ∧ (∀ n c rest, (∀ r ∈ requests, r.ofReset = false) → s.management.execution = .softReset n →
          s.management.commands = c :: rest →
          exec (.portResync p) s = .next (u.answered c rest ⟨.done, false, [byte n]⟩)))
  ∧ ∀ (s : State) (n : Nat) (c : Command) (rest : List Command) (r : Request) (i : Instr),
      (r, i) ∈ [(Request.walkerReset, Instr.walkerReset), (Request.circuitAbort, Instr.circuitAbort)] →
      s.lastOfReset r n c rest → ∃ t, exec i s = .next t
        ∧ t.management.commands = rest ∧ t.management.execution = .none
        ∧ t.management.replies = s.management.replies ++
            [⟨c.tag, .done, false, BitVec.ofNat 8 n :: List.replicate 9 0⟩]

/-! ### The fault log -/

/-- TRUNK_SYNC_LOSS and RAM_POISONED are SEVERE and every other kind is MINOR (R180), and the twelve kinds have the
codes 1 to 12 of 12.5. A report that the fault log takes (R121, R181, R182, R183, R184, R185). One of a kind and
location in the log raises that record's count by one, stopping at 255. Otherwise it appends a record with count
1, the show clock and a clear mark below 8 records; with 8 a SEVERE one takes the place of the oldest MINOR
record, inheriting its overflow mark, and the read position falls by one where it stood above that record; any
other is lost and marks the newest record. A new record copies the last-cue record and offers a FAULT notice,
unless its kind is NOTICE_OVERRUN. -/
def Obligations.FaultReports : Prop :=
  (∀ kind : FaultKind, severe kind = true ↔ kind = .trunkSyncLoss ∨ kind = .ramPoisoned)
  ∧ [FaultKind.trunkCheck, .trunkSyncLoss, .portLost, .keyOverrun, .queueFull, .chainLimit, .ramCorrected,
      .ramPoisoned, .slotExhausted, .cellCheck, .noticeOverrun, .loadTimeout].map faultCode
      = [1, 2, 3, 4, 5, 6, 7, 8, 9, 10, 11, 12]
  ∧ ∀ (s : State) (kind : FaultKind) (loc : Location), Request.fault kind loc ∈ s.requests →
    let l := s.faultLog
    let taken := s.setRequests (s.requests.erase (.fault kind loc))
    let created (log : FaultLog) : State :=
      let u := (taken.setFaultLog log).setCueList { s.cueList with beforeFault := s.cueList.lastCue }
      if kind = .noticeOverrun then u else u.offer (.fault kind loc s.trunk.clock)
    let new (mark : Bool) : FaultRecord := ⟨kind, loc, s.trunk.clock, 1, mark⟩
    (∀ before r after, l.records = before ++ r :: after → r.kind = kind → r.loc = loc →
      (∀ q ∈ before, q.kind ≠ kind ∨ q.loc ≠ loc) → exec (.faultReport kind loc) s =
        .next (taken.setFaultLog { l with
          records := before ++ { r with count := if r.count < 255 then r.count + 1 else 255 } :: after }))
    ∧ ((∀ q ∈ l.records, q.kind ≠ kind ∨ q.loc ≠ loc) →
      (l.records.length < 8 → exec (.faultReport kind loc) s =
        .next (created { l with records := l.records ++ [new false] }))
      ∧ (8 ≤ l.records.length → severe kind = true → ∀ before r after,
          l.records = before ++ r :: after → severe r.kind = false →
          (∀ q ∈ before, severe q.kind = true) → exec (.faultReport kind loc) s =
            .next (created ⟨before ++ after ++ [new r.overflow],
              if before.length < l.readPos then l.readPos - 1 else l.readPos⟩))
      ∧ (∀ before r, 8 ≤ l.records.length → l.records = before ++ [r] →
          severe kind = false ∨ (∀ q ∈ l.records, severe q.kind = true) →
          exec (.faultReport kind loc) s = .next (taken.setFaultLog { l with
            records := before ++ [{ r with overflow := true }] })))

/-- READ FAULTS and CLEAR FAULTS (R188, R189), in every state of the show lock. READ FAULTS answers the record
at the read position with its place and the number of records, and moves the position on; past the last
record it answers no record and sets the position to 0. CLEAR FAULTS empties the list, sets the read
position to 0, keeps the last-cue-before-fault record and answers how many records it removed and whether
one carried an overflow mark. The bytes of a record that is not there are the model's reading (log 13). -/
def Obligations.FaultsReadAndCleared : Prop :=
  (∀ (s : State) (c : Command) (rest : List Command), s.canRun 0x50 anyLock c rest →
    let l := s.faultLog
    (∀ r, l.records[l.readPos]? = some r → exec .readFaults s =
      .next ((s.setFaultLog { l with readPos := l.readPos + 1 }).answered c rest ⟨.done, false,
        [byte (16 * l.readPos + l.records.length), byte (faultCode r.kind),
          byte ((if severe r.kind then 128 else 0) + if r.overflow then 1 else 0)]
        ++ locationBytes r.loc ++ bytesOf32 r.stamp ++ [byte r.count]⟩))
    ∧ (l.records.length ≤ l.readPos → exec .readFaults s =
      .next ((s.setFaultLog { l with readPos := 0 }).answered c rest ⟨.done, false,
        [byte (240 + l.records.length), 0xFF, 0, 0, 0, 0xFF, 0xFF, 0xFF, 0xFF, 0xFF]⟩)))
  ∧ ∀ (s : State) (c : Command) (rest : List Command), s.canRun 0x51 anyLock c rest →
      (∀ mark : Bool, (mark = true ↔ ∃ r ∈ s.faultLog.records, r.overflow = true) →
        exec .clearFaults s = .next ((s.setFaultLog ⟨[], 0⟩).answered c rest ⟨.done, false,
          [byte s.faultLog.records.length, if mark then 1 else 0]⟩))

/-! ### What every step keeps -/

/-- An open load stays within table RAM with its records accounted for (R166, R167, R169), and with that table RAM
keeps its canonical form (R40); every gain in it, in the walker's hands, in an install under way and in a LIVE
slot stays at most 512 (R16, R18, R43). The crosspoint set stays sound (R3, R4, R5, R6): no connection from
channel to channel, one to four owners without repeats, the pinned flag that of the owners, and no two LIVE
slots with one source, destination and class. And at no moment does a slot carry KEY(p, k) while the key is OFF,
MISSED or REFUSED (R73), nor CUE(c) while the circuit is IDLE but for its remove circuit request in transit
(R96, R107), given what the walker, the crosspoint set and the requests in transit hold of it (R131); and no
walk that is to be suppressed makes a hit good (R71). The parts on walks, removals and soft reset that make it
hold are the model's readings (logs 4, 5 and 9). -/
def Obligations.DirectoryAndSlotsStaySound : Prop :=
  Kept State.loadSound
  ∧ Kept (fun s => s.loadSound ∧ s.directory.ram.wf)
  ∧ Kept (fun s => s.loadSound ∧ s.directory.ram.wf ∧ s.gainsSound)
  ∧ Kept (fun s => s.xps.sound)
  ∧ Kept State.OwnersSound

/-- The queues stay within their capacities, with reserved reply entries counted and a command in execution
at the head (R58, R159, R160, R163, R164); the fault log stays sound (R180, R181, R187): at most 8 records,
no two of one kind and location, counts from 1 to 255, the read position within the list; and so does the
cue list (R109): at most 128 entries, none without a circuit, the cursor within the list. With the show lock not
OPEN no load, no new region and no RAM initialisation is under way, and with it FROZEN no new scene (R160,
R177, R179). -/
def Obligations.QueuesListsAndLogStaySound : Prop :=
  Kept State.queuesSound ∧ Kept (fun s => s.faultLog.sound) ∧ Kept (fun s => s.cueList.sound)
    ∧ Kept State.lockSound

/-- Every circuit stays sound (R83, R87, R90, R91, R92, R95, R96, R104): at most four members without
repeats and eight outcomes; no cue number, late marker or answer in IDLE; a hold deadline exactly in GO; a
standby deadline only in STANDBY; a pending standby only in GO. -/
def Obligations.CircuitsStaySound : Prop :=
  Kept fun s => ∀ c : CircuitIx, s.circuits[c].sound

/-- The station ports stay within the ranges of R126 and R128, an UNUSED port is DOWN and a port that is not
UP holds no sample, message, reply or resync flag (R127, R130); the trunk port's runs stay within R144, its
timing is TRUNK exactly in LOCKED, and its lanes are 0 outside LOCKED (R146, R147); and no clip counter
passes 65535 (R36). -/
def Obligations.PortsTrunkAndMixerStaySound : Prop :=
  Kept (fun s => ∀ p : Port, s.ports[p].sound) ∧ Kept (fun s => s.trunk.sound)
  ∧ Kept (fun s => s.mixer.sound)

/-- The machine right after reset has every property that the steps keep. That table RAM lists nothing there and
that the straps read 0 is the model's choice (log 3). -/
def Obligations.ResetIsSound : Prop :=
  let s := State.reset
  s.loadSound ∧ s.directory.ram.wf ∧ s.gainsSound ∧ s.xps.sound ∧ s.OwnersSound ∧ s.queuesSound
    ∧ s.lockSound ∧ s.faultLog.sound ∧ s.cueList.sound
    ∧ (∀ c : CircuitIx, s.circuits[c].sound) ∧ (∀ p : Port, s.ports[p].sound) ∧ s.trunk.sound
    ∧ s.mixer.sound
end

