-- ==== Sys2Proof/Laws/State.lean ====
section
/-!
SUPPORT. What each update of one field of the state does to every field, and the fields that the shared
operations leave alone: true by unfolding, and cited by simp, so that no proof unfolds an update.
-/

namespace Sys2Proof.Machine

variable (s : State)

/-! ### setPending -/

@[simp] theorem State.setPending_pending (x : List Instr) : (s.setPending x).pending = x := rfl
@[simp] theorem State.setPending_trunk (x : List Instr) : (s.setPending x).trunk = s.trunk := rfl
@[simp] theorem State.setPending_ports (x : List Instr) : (s.setPending x).ports = s.ports := rfl
@[simp] theorem State.setPending_group (x : List Instr) : (s.setPending x).group = s.group := rfl
@[simp] theorem State.setPending_directory (x : List Instr) : (s.setPending x).directory = s.directory := rfl
@[simp] theorem State.setPending_walker (x : List Instr) : (s.setPending x).walker = s.walker := rfl
@[simp] theorem State.setPending_xps (x : List Instr) : (s.setPending x).xps = s.xps := rfl
@[simp] theorem State.setPending_mixer (x : List Instr) : (s.setPending x).mixer = s.mixer := rfl
@[simp] theorem State.setPending_circuits (x : List Instr) : (s.setPending x).circuits = s.circuits := rfl
@[simp] theorem State.setPending_cueList (x : List Instr) : (s.setPending x).cueList = s.cueList := rfl
@[simp] theorem State.setPending_management (x : List Instr) : (s.setPending x).management = s.management := rfl
@[simp] theorem State.setPending_faultLog (x : List Instr) : (s.setPending x).faultLog = s.faultLog := rfl
@[simp] theorem State.setPending_requests (x : List Instr) : (s.setPending x).requests = s.requests := rfl
@[simp] theorem State.setPending_self : s.setPending s.pending = s := rfl
@[simp] theorem State.setPending_setPending (x y : List Instr) : (s.setPending x).setPending y = s.setPending y := rfl

/-! ### setTrunk -/

@[simp] theorem State.setTrunk_pending (x : TrunkPort) : (s.setTrunk x).pending = s.pending := rfl
@[simp] theorem State.setTrunk_trunk (x : TrunkPort) : (s.setTrunk x).trunk = x := rfl
@[simp] theorem State.setTrunk_ports (x : TrunkPort) : (s.setTrunk x).ports = s.ports := rfl
@[simp] theorem State.setTrunk_group (x : TrunkPort) : (s.setTrunk x).group = s.group := rfl
@[simp] theorem State.setTrunk_directory (x : TrunkPort) : (s.setTrunk x).directory = s.directory := rfl
@[simp] theorem State.setTrunk_walker (x : TrunkPort) : (s.setTrunk x).walker = s.walker := rfl
@[simp] theorem State.setTrunk_xps (x : TrunkPort) : (s.setTrunk x).xps = s.xps := rfl
@[simp] theorem State.setTrunk_mixer (x : TrunkPort) : (s.setTrunk x).mixer = s.mixer := rfl
@[simp] theorem State.setTrunk_circuits (x : TrunkPort) : (s.setTrunk x).circuits = s.circuits := rfl
@[simp] theorem State.setTrunk_cueList (x : TrunkPort) : (s.setTrunk x).cueList = s.cueList := rfl
@[simp] theorem State.setTrunk_management (x : TrunkPort) : (s.setTrunk x).management = s.management := rfl
@[simp] theorem State.setTrunk_faultLog (x : TrunkPort) : (s.setTrunk x).faultLog = s.faultLog := rfl
@[simp] theorem State.setTrunk_requests (x : TrunkPort) : (s.setTrunk x).requests = s.requests := rfl
@[simp] theorem State.setTrunk_self : s.setTrunk s.trunk = s := rfl
@[simp] theorem State.setTrunk_setTrunk (x y : TrunkPort) : (s.setTrunk x).setTrunk y = s.setTrunk y := rfl

/-! ### setPorts -/

@[simp] theorem State.setPorts_pending (x : Vector StationPort 16) : (s.setPorts x).pending = s.pending := rfl
@[simp] theorem State.setPorts_trunk (x : Vector StationPort 16) : (s.setPorts x).trunk = s.trunk := rfl
@[simp] theorem State.setPorts_ports (x : Vector StationPort 16) : (s.setPorts x).ports = x := rfl
@[simp] theorem State.setPorts_group (x : Vector StationPort 16) : (s.setPorts x).group = s.group := rfl
@[simp] theorem State.setPorts_directory (x : Vector StationPort 16) : (s.setPorts x).directory = s.directory := rfl
@[simp] theorem State.setPorts_walker (x : Vector StationPort 16) : (s.setPorts x).walker = s.walker := rfl
@[simp] theorem State.setPorts_xps (x : Vector StationPort 16) : (s.setPorts x).xps = s.xps := rfl
@[simp] theorem State.setPorts_mixer (x : Vector StationPort 16) : (s.setPorts x).mixer = s.mixer := rfl
@[simp] theorem State.setPorts_circuits (x : Vector StationPort 16) : (s.setPorts x).circuits = s.circuits := rfl
@[simp] theorem State.setPorts_cueList (x : Vector StationPort 16) : (s.setPorts x).cueList = s.cueList := rfl
@[simp] theorem State.setPorts_management (x : Vector StationPort 16) : (s.setPorts x).management = s.management := rfl
@[simp] theorem State.setPorts_faultLog (x : Vector StationPort 16) : (s.setPorts x).faultLog = s.faultLog := rfl
@[simp] theorem State.setPorts_requests (x : Vector StationPort 16) : (s.setPorts x).requests = s.requests := rfl
@[simp] theorem State.setPorts_self : s.setPorts s.ports = s := rfl
@[simp] theorem State.setPorts_setPorts (x y : Vector StationPort 16) : (s.setPorts x).setPorts y = s.setPorts y := rfl

/-! ### setGroup -/

@[simp] theorem State.setGroup_pending (x : Fin 3) : (s.setGroup x).pending = s.pending := rfl
@[simp] theorem State.setGroup_trunk (x : Fin 3) : (s.setGroup x).trunk = s.trunk := rfl
@[simp] theorem State.setGroup_ports (x : Fin 3) : (s.setGroup x).ports = s.ports := rfl
@[simp] theorem State.setGroup_group (x : Fin 3) : (s.setGroup x).group = x := rfl
@[simp] theorem State.setGroup_directory (x : Fin 3) : (s.setGroup x).directory = s.directory := rfl
@[simp] theorem State.setGroup_walker (x : Fin 3) : (s.setGroup x).walker = s.walker := rfl
@[simp] theorem State.setGroup_xps (x : Fin 3) : (s.setGroup x).xps = s.xps := rfl
@[simp] theorem State.setGroup_mixer (x : Fin 3) : (s.setGroup x).mixer = s.mixer := rfl
@[simp] theorem State.setGroup_circuits (x : Fin 3) : (s.setGroup x).circuits = s.circuits := rfl
@[simp] theorem State.setGroup_cueList (x : Fin 3) : (s.setGroup x).cueList = s.cueList := rfl
@[simp] theorem State.setGroup_management (x : Fin 3) : (s.setGroup x).management = s.management := rfl
@[simp] theorem State.setGroup_faultLog (x : Fin 3) : (s.setGroup x).faultLog = s.faultLog := rfl
@[simp] theorem State.setGroup_requests (x : Fin 3) : (s.setGroup x).requests = s.requests := rfl
@[simp] theorem State.setGroup_self : s.setGroup s.group = s := rfl
@[simp] theorem State.setGroup_setGroup (x y : Fin 3) : (s.setGroup x).setGroup y = s.setGroup y := rfl

/-! ### setDirectory -/

@[simp] theorem State.setDirectory_pending (x : Directory) : (s.setDirectory x).pending = s.pending := rfl
@[simp] theorem State.setDirectory_trunk (x : Directory) : (s.setDirectory x).trunk = s.trunk := rfl
@[simp] theorem State.setDirectory_ports (x : Directory) : (s.setDirectory x).ports = s.ports := rfl
@[simp] theorem State.setDirectory_group (x : Directory) : (s.setDirectory x).group = s.group := rfl
@[simp] theorem State.setDirectory_directory (x : Directory) : (s.setDirectory x).directory = x := rfl
@[simp] theorem State.setDirectory_walker (x : Directory) : (s.setDirectory x).walker = s.walker := rfl
@[simp] theorem State.setDirectory_xps (x : Directory) : (s.setDirectory x).xps = s.xps := rfl
@[simp] theorem State.setDirectory_mixer (x : Directory) : (s.setDirectory x).mixer = s.mixer := rfl
@[simp] theorem State.setDirectory_circuits (x : Directory) : (s.setDirectory x).circuits = s.circuits := rfl
@[simp] theorem State.setDirectory_cueList (x : Directory) : (s.setDirectory x).cueList = s.cueList := rfl
@[simp] theorem State.setDirectory_management (x : Directory) : (s.setDirectory x).management = s.management := rfl
@[simp] theorem State.setDirectory_faultLog (x : Directory) : (s.setDirectory x).faultLog = s.faultLog := rfl
@[simp] theorem State.setDirectory_requests (x : Directory) : (s.setDirectory x).requests = s.requests := rfl
@[simp] theorem State.setDirectory_self : s.setDirectory s.directory = s := rfl
@[simp] theorem State.setDirectory_setDirectory (x y : Directory) : (s.setDirectory x).setDirectory y = s.setDirectory y := rfl

/-! ### setWalker -/

@[simp] theorem State.setWalker_pending (x : Walker) : (s.setWalker x).pending = s.pending := rfl
@[simp] theorem State.setWalker_trunk (x : Walker) : (s.setWalker x).trunk = s.trunk := rfl
@[simp] theorem State.setWalker_ports (x : Walker) : (s.setWalker x).ports = s.ports := rfl
@[simp] theorem State.setWalker_group (x : Walker) : (s.setWalker x).group = s.group := rfl
@[simp] theorem State.setWalker_directory (x : Walker) : (s.setWalker x).directory = s.directory := rfl
@[simp] theorem State.setWalker_walker (x : Walker) : (s.setWalker x).walker = x := rfl
@[simp] theorem State.setWalker_xps (x : Walker) : (s.setWalker x).xps = s.xps := rfl
@[simp] theorem State.setWalker_mixer (x : Walker) : (s.setWalker x).mixer = s.mixer := rfl
@[simp] theorem State.setWalker_circuits (x : Walker) : (s.setWalker x).circuits = s.circuits := rfl
@[simp] theorem State.setWalker_cueList (x : Walker) : (s.setWalker x).cueList = s.cueList := rfl
@[simp] theorem State.setWalker_management (x : Walker) : (s.setWalker x).management = s.management := rfl
@[simp] theorem State.setWalker_faultLog (x : Walker) : (s.setWalker x).faultLog = s.faultLog := rfl
@[simp] theorem State.setWalker_requests (x : Walker) : (s.setWalker x).requests = s.requests := rfl
@[simp] theorem State.setWalker_self : s.setWalker s.walker = s := rfl
@[simp] theorem State.setWalker_setWalker (x y : Walker) : (s.setWalker x).setWalker y = s.setWalker y := rfl

/-! ### setXps -/

@[simp] theorem State.setXps_pending (x : CrosspointSet) : (s.setXps x).pending = s.pending := rfl
@[simp] theorem State.setXps_trunk (x : CrosspointSet) : (s.setXps x).trunk = s.trunk := rfl
@[simp] theorem State.setXps_ports (x : CrosspointSet) : (s.setXps x).ports = s.ports := rfl
@[simp] theorem State.setXps_group (x : CrosspointSet) : (s.setXps x).group = s.group := rfl
@[simp] theorem State.setXps_directory (x : CrosspointSet) : (s.setXps x).directory = s.directory := rfl
@[simp] theorem State.setXps_walker (x : CrosspointSet) : (s.setXps x).walker = s.walker := rfl
@[simp] theorem State.setXps_xps (x : CrosspointSet) : (s.setXps x).xps = x := rfl
@[simp] theorem State.setXps_mixer (x : CrosspointSet) : (s.setXps x).mixer = s.mixer := rfl
@[simp] theorem State.setXps_circuits (x : CrosspointSet) : (s.setXps x).circuits = s.circuits := rfl
@[simp] theorem State.setXps_cueList (x : CrosspointSet) : (s.setXps x).cueList = s.cueList := rfl
@[simp] theorem State.setXps_management (x : CrosspointSet) : (s.setXps x).management = s.management := rfl
@[simp] theorem State.setXps_faultLog (x : CrosspointSet) : (s.setXps x).faultLog = s.faultLog := rfl
@[simp] theorem State.setXps_requests (x : CrosspointSet) : (s.setXps x).requests = s.requests := rfl
@[simp] theorem State.setXps_self : s.setXps s.xps = s := rfl
@[simp] theorem State.setXps_setXps (x y : CrosspointSet) : (s.setXps x).setXps y = s.setXps y := rfl

/-! ### setMixer -/

@[simp] theorem State.setMixer_pending (x : MixEngine) : (s.setMixer x).pending = s.pending := rfl
@[simp] theorem State.setMixer_trunk (x : MixEngine) : (s.setMixer x).trunk = s.trunk := rfl
@[simp] theorem State.setMixer_ports (x : MixEngine) : (s.setMixer x).ports = s.ports := rfl
@[simp] theorem State.setMixer_group (x : MixEngine) : (s.setMixer x).group = s.group := rfl
@[simp] theorem State.setMixer_directory (x : MixEngine) : (s.setMixer x).directory = s.directory := rfl
@[simp] theorem State.setMixer_walker (x : MixEngine) : (s.setMixer x).walker = s.walker := rfl
@[simp] theorem State.setMixer_xps (x : MixEngine) : (s.setMixer x).xps = s.xps := rfl
@[simp] theorem State.setMixer_mixer (x : MixEngine) : (s.setMixer x).mixer = x := rfl
@[simp] theorem State.setMixer_circuits (x : MixEngine) : (s.setMixer x).circuits = s.circuits := rfl
@[simp] theorem State.setMixer_cueList (x : MixEngine) : (s.setMixer x).cueList = s.cueList := rfl
@[simp] theorem State.setMixer_management (x : MixEngine) : (s.setMixer x).management = s.management := rfl
@[simp] theorem State.setMixer_faultLog (x : MixEngine) : (s.setMixer x).faultLog = s.faultLog := rfl
@[simp] theorem State.setMixer_requests (x : MixEngine) : (s.setMixer x).requests = s.requests := rfl
@[simp] theorem State.setMixer_self : s.setMixer s.mixer = s := rfl
@[simp] theorem State.setMixer_setMixer (x y : MixEngine) : (s.setMixer x).setMixer y = s.setMixer y := rfl

/-! ### setCircuits -/

@[simp] theorem State.setCircuits_pending (x : Vector Circuit 24) : (s.setCircuits x).pending = s.pending := rfl
@[simp] theorem State.setCircuits_trunk (x : Vector Circuit 24) : (s.setCircuits x).trunk = s.trunk := rfl
@[simp] theorem State.setCircuits_ports (x : Vector Circuit 24) : (s.setCircuits x).ports = s.ports := rfl
@[simp] theorem State.setCircuits_group (x : Vector Circuit 24) : (s.setCircuits x).group = s.group := rfl
@[simp] theorem State.setCircuits_directory (x : Vector Circuit 24) : (s.setCircuits x).directory = s.directory := rfl
@[simp] theorem State.setCircuits_walker (x : Vector Circuit 24) : (s.setCircuits x).walker = s.walker := rfl
@[simp] theorem State.setCircuits_xps (x : Vector Circuit 24) : (s.setCircuits x).xps = s.xps := rfl
@[simp] theorem State.setCircuits_mixer (x : Vector Circuit 24) : (s.setCircuits x).mixer = s.mixer := rfl
@[simp] theorem State.setCircuits_circuits (x : Vector Circuit 24) : (s.setCircuits x).circuits = x := rfl
@[simp] theorem State.setCircuits_cueList (x : Vector Circuit 24) : (s.setCircuits x).cueList = s.cueList := rfl
@[simp] theorem State.setCircuits_management (x : Vector Circuit 24) : (s.setCircuits x).management = s.management := rfl
@[simp] theorem State.setCircuits_faultLog (x : Vector Circuit 24) : (s.setCircuits x).faultLog = s.faultLog := rfl
@[simp] theorem State.setCircuits_requests (x : Vector Circuit 24) : (s.setCircuits x).requests = s.requests := rfl
@[simp] theorem State.setCircuits_self : s.setCircuits s.circuits = s := rfl
@[simp] theorem State.setCircuits_setCircuits (x y : Vector Circuit 24) : (s.setCircuits x).setCircuits y = s.setCircuits y := rfl

/-! ### setCueList -/

@[simp] theorem State.setCueList_pending (x : CueList) : (s.setCueList x).pending = s.pending := rfl
@[simp] theorem State.setCueList_trunk (x : CueList) : (s.setCueList x).trunk = s.trunk := rfl
@[simp] theorem State.setCueList_ports (x : CueList) : (s.setCueList x).ports = s.ports := rfl
@[simp] theorem State.setCueList_group (x : CueList) : (s.setCueList x).group = s.group := rfl
@[simp] theorem State.setCueList_directory (x : CueList) : (s.setCueList x).directory = s.directory := rfl
@[simp] theorem State.setCueList_walker (x : CueList) : (s.setCueList x).walker = s.walker := rfl
@[simp] theorem State.setCueList_xps (x : CueList) : (s.setCueList x).xps = s.xps := rfl
@[simp] theorem State.setCueList_mixer (x : CueList) : (s.setCueList x).mixer = s.mixer := rfl
@[simp] theorem State.setCueList_circuits (x : CueList) : (s.setCueList x).circuits = s.circuits := rfl
@[simp] theorem State.setCueList_cueList (x : CueList) : (s.setCueList x).cueList = x := rfl
@[simp] theorem State.setCueList_management (x : CueList) : (s.setCueList x).management = s.management := rfl
@[simp] theorem State.setCueList_faultLog (x : CueList) : (s.setCueList x).faultLog = s.faultLog := rfl
@[simp] theorem State.setCueList_requests (x : CueList) : (s.setCueList x).requests = s.requests := rfl
@[simp] theorem State.setCueList_self : s.setCueList s.cueList = s := rfl
@[simp] theorem State.setCueList_setCueList (x y : CueList) : (s.setCueList x).setCueList y = s.setCueList y := rfl

/-! ### setManagement -/

@[simp] theorem State.setManagement_pending (x : Management) : (s.setManagement x).pending = s.pending := rfl
@[simp] theorem State.setManagement_trunk (x : Management) : (s.setManagement x).trunk = s.trunk := rfl
@[simp] theorem State.setManagement_ports (x : Management) : (s.setManagement x).ports = s.ports := rfl
@[simp] theorem State.setManagement_group (x : Management) : (s.setManagement x).group = s.group := rfl
@[simp] theorem State.setManagement_directory (x : Management) : (s.setManagement x).directory = s.directory := rfl
@[simp] theorem State.setManagement_walker (x : Management) : (s.setManagement x).walker = s.walker := rfl
@[simp] theorem State.setManagement_xps (x : Management) : (s.setManagement x).xps = s.xps := rfl
@[simp] theorem State.setManagement_mixer (x : Management) : (s.setManagement x).mixer = s.mixer := rfl
@[simp] theorem State.setManagement_circuits (x : Management) : (s.setManagement x).circuits = s.circuits := rfl
@[simp] theorem State.setManagement_cueList (x : Management) : (s.setManagement x).cueList = s.cueList := rfl
@[simp] theorem State.setManagement_management (x : Management) : (s.setManagement x).management = x := rfl
@[simp] theorem State.setManagement_faultLog (x : Management) : (s.setManagement x).faultLog = s.faultLog := rfl
@[simp] theorem State.setManagement_requests (x : Management) : (s.setManagement x).requests = s.requests := rfl
@[simp] theorem State.setManagement_self : s.setManagement s.management = s := rfl
@[simp] theorem State.setManagement_setManagement (x y : Management) : (s.setManagement x).setManagement y = s.setManagement y := rfl

/-! ### setFaultLog -/

@[simp] theorem State.setFaultLog_pending (x : FaultLog) : (s.setFaultLog x).pending = s.pending := rfl
@[simp] theorem State.setFaultLog_trunk (x : FaultLog) : (s.setFaultLog x).trunk = s.trunk := rfl
@[simp] theorem State.setFaultLog_ports (x : FaultLog) : (s.setFaultLog x).ports = s.ports := rfl
@[simp] theorem State.setFaultLog_group (x : FaultLog) : (s.setFaultLog x).group = s.group := rfl
@[simp] theorem State.setFaultLog_directory (x : FaultLog) : (s.setFaultLog x).directory = s.directory := rfl
@[simp] theorem State.setFaultLog_walker (x : FaultLog) : (s.setFaultLog x).walker = s.walker := rfl
@[simp] theorem State.setFaultLog_xps (x : FaultLog) : (s.setFaultLog x).xps = s.xps := rfl
@[simp] theorem State.setFaultLog_mixer (x : FaultLog) : (s.setFaultLog x).mixer = s.mixer := rfl
@[simp] theorem State.setFaultLog_circuits (x : FaultLog) : (s.setFaultLog x).circuits = s.circuits := rfl
@[simp] theorem State.setFaultLog_cueList (x : FaultLog) : (s.setFaultLog x).cueList = s.cueList := rfl
@[simp] theorem State.setFaultLog_management (x : FaultLog) : (s.setFaultLog x).management = s.management := rfl
@[simp] theorem State.setFaultLog_faultLog (x : FaultLog) : (s.setFaultLog x).faultLog = x := rfl
@[simp] theorem State.setFaultLog_requests (x : FaultLog) : (s.setFaultLog x).requests = s.requests := rfl
@[simp] theorem State.setFaultLog_self : s.setFaultLog s.faultLog = s := rfl
@[simp] theorem State.setFaultLog_setFaultLog (x y : FaultLog) : (s.setFaultLog x).setFaultLog y = s.setFaultLog y := rfl

/-! ### setRequests -/

@[simp] theorem State.setRequests_pending (x : List Request) : (s.setRequests x).pending = s.pending := rfl
@[simp] theorem State.setRequests_trunk (x : List Request) : (s.setRequests x).trunk = s.trunk := rfl
@[simp] theorem State.setRequests_ports (x : List Request) : (s.setRequests x).ports = s.ports := rfl
@[simp] theorem State.setRequests_group (x : List Request) : (s.setRequests x).group = s.group := rfl
@[simp] theorem State.setRequests_directory (x : List Request) : (s.setRequests x).directory = s.directory := rfl
@[simp] theorem State.setRequests_walker (x : List Request) : (s.setRequests x).walker = s.walker := rfl
@[simp] theorem State.setRequests_xps (x : List Request) : (s.setRequests x).xps = s.xps := rfl
@[simp] theorem State.setRequests_mixer (x : List Request) : (s.setRequests x).mixer = s.mixer := rfl
@[simp] theorem State.setRequests_circuits (x : List Request) : (s.setRequests x).circuits = s.circuits := rfl
@[simp] theorem State.setRequests_cueList (x : List Request) : (s.setRequests x).cueList = s.cueList := rfl
@[simp] theorem State.setRequests_management (x : List Request) : (s.setRequests x).management = s.management := rfl
@[simp] theorem State.setRequests_faultLog (x : List Request) : (s.setRequests x).faultLog = s.faultLog := rfl
@[simp] theorem State.setRequests_requests (x : List Request) : (s.setRequests x).requests = x := rfl
@[simp] theorem State.setRequests_self : s.setRequests s.requests = s := rfl
@[simp] theorem State.setRequests_setRequests (x y : List Request) : (s.setRequests x).setRequests y = s.setRequests y := rfl

/-! ### setPort -/

@[simp] theorem State.setPort_pending (p : Port) (x : StationPort) : (s.setPort p x).pending = s.pending := rfl
@[simp] theorem State.setPort_trunk (p : Port) (x : StationPort) : (s.setPort p x).trunk = s.trunk := rfl
@[simp] theorem State.setPort_ports (p : Port) (x : StationPort) : (s.setPort p x).ports = put s.ports p x := rfl
@[simp] theorem State.setPort_group (p : Port) (x : StationPort) : (s.setPort p x).group = s.group := rfl
@[simp] theorem State.setPort_directory (p : Port) (x : StationPort) : (s.setPort p x).directory = s.directory := rfl
@[simp] theorem State.setPort_walker (p : Port) (x : StationPort) : (s.setPort p x).walker = s.walker := rfl
@[simp] theorem State.setPort_xps (p : Port) (x : StationPort) : (s.setPort p x).xps = s.xps := rfl
@[simp] theorem State.setPort_mixer (p : Port) (x : StationPort) : (s.setPort p x).mixer = s.mixer := rfl
@[simp] theorem State.setPort_circuits (p : Port) (x : StationPort) : (s.setPort p x).circuits = s.circuits := rfl
@[simp] theorem State.setPort_cueList (p : Port) (x : StationPort) : (s.setPort p x).cueList = s.cueList := rfl
@[simp] theorem State.setPort_management (p : Port) (x : StationPort) : (s.setPort p x).management = s.management := rfl
@[simp] theorem State.setPort_faultLog (p : Port) (x : StationPort) : (s.setPort p x).faultLog = s.faultLog := rfl
@[simp] theorem State.setPort_requests (p : Port) (x : StationPort) : (s.setPort p x).requests = s.requests := rfl

/-! ### setEntry -/

@[simp] theorem State.setEntry_pending (p : Port) (k : Key) (e : KeyEntry) : (s.setEntry p k e).pending = s.pending := rfl
@[simp] theorem State.setEntry_trunk (p : Port) (k : Key) (e : KeyEntry) : (s.setEntry p k e).trunk = s.trunk := rfl
@[simp] theorem State.setEntry_ports (p : Port) (k : Key) (e : KeyEntry) : (s.setEntry p k e).ports = s.ports := rfl
@[simp] theorem State.setEntry_group (p : Port) (k : Key) (e : KeyEntry) : (s.setEntry p k e).group = s.group := rfl
@[simp] theorem State.setEntry_directory (p : Port) (k : Key) (e : KeyEntry) : (s.setEntry p k e).directory = s.directory := rfl
@[simp] theorem State.setEntry_walker (p : Port) (k : Key) (e : KeyEntry) : (s.setEntry p k e).walker = s.walker.setEntry p k e := rfl
@[simp] theorem State.setEntry_xps (p : Port) (k : Key) (e : KeyEntry) : (s.setEntry p k e).xps = s.xps := rfl
@[simp] theorem State.setEntry_mixer (p : Port) (k : Key) (e : KeyEntry) : (s.setEntry p k e).mixer = s.mixer := rfl
@[simp] theorem State.setEntry_circuits (p : Port) (k : Key) (e : KeyEntry) : (s.setEntry p k e).circuits = s.circuits := rfl
@[simp] theorem State.setEntry_cueList (p : Port) (k : Key) (e : KeyEntry) : (s.setEntry p k e).cueList = s.cueList := rfl
@[simp] theorem State.setEntry_management (p : Port) (k : Key) (e : KeyEntry) : (s.setEntry p k e).management = s.management := rfl
@[simp] theorem State.setEntry_faultLog (p : Port) (k : Key) (e : KeyEntry) : (s.setEntry p k e).faultLog = s.faultLog := rfl
@[simp] theorem State.setEntry_requests (p : Port) (k : Key) (e : KeyEntry) : (s.setEntry p k e).requests = s.requests := rfl

/-! ### setJob -/

@[simp] theorem State.setJob_pending (j : Job) : (s.setJob j).pending = s.pending := rfl
@[simp] theorem State.setJob_trunk (j : Job) : (s.setJob j).trunk = s.trunk := rfl
@[simp] theorem State.setJob_ports (j : Job) : (s.setJob j).ports = s.ports := rfl
@[simp] theorem State.setJob_group (j : Job) : (s.setJob j).group = s.group := rfl
@[simp] theorem State.setJob_directory (j : Job) : (s.setJob j).directory = s.directory := rfl
@[simp] theorem State.setJob_walker (j : Job) : (s.setJob j).walker = { s.walker with job := j } := rfl
@[simp] theorem State.setJob_xps (j : Job) : (s.setJob j).xps = s.xps := rfl
@[simp] theorem State.setJob_mixer (j : Job) : (s.setJob j).mixer = s.mixer := rfl
@[simp] theorem State.setJob_circuits (j : Job) : (s.setJob j).circuits = s.circuits := rfl
@[simp] theorem State.setJob_cueList (j : Job) : (s.setJob j).cueList = s.cueList := rfl
@[simp] theorem State.setJob_management (j : Job) : (s.setJob j).management = s.management := rfl
@[simp] theorem State.setJob_faultLog (j : Job) : (s.setJob j).faultLog = s.faultLog := rfl
@[simp] theorem State.setJob_requests (j : Job) : (s.setJob j).requests = s.requests := rfl

/-! ### setCircuit -/

@[simp] theorem State.setCircuit_pending (c : CircuitIx) (x : Circuit) : (s.setCircuit c x).pending = s.pending := rfl
@[simp] theorem State.setCircuit_trunk (c : CircuitIx) (x : Circuit) : (s.setCircuit c x).trunk = s.trunk := rfl
@[simp] theorem State.setCircuit_ports (c : CircuitIx) (x : Circuit) : (s.setCircuit c x).ports = s.ports := rfl
@[simp] theorem State.setCircuit_group (c : CircuitIx) (x : Circuit) : (s.setCircuit c x).group = s.group := rfl
@[simp] theorem State.setCircuit_directory (c : CircuitIx) (x : Circuit) : (s.setCircuit c x).directory = s.directory := rfl
@[simp] theorem State.setCircuit_walker (c : CircuitIx) (x : Circuit) : (s.setCircuit c x).walker = s.walker := rfl
@[simp] theorem State.setCircuit_xps (c : CircuitIx) (x : Circuit) : (s.setCircuit c x).xps = s.xps := rfl
@[simp] theorem State.setCircuit_mixer (c : CircuitIx) (x : Circuit) : (s.setCircuit c x).mixer = s.mixer := rfl
@[simp] theorem State.setCircuit_circuits (c : CircuitIx) (x : Circuit) : (s.setCircuit c x).circuits = put s.circuits c x := rfl
@[simp] theorem State.setCircuit_cueList (c : CircuitIx) (x : Circuit) : (s.setCircuit c x).cueList = s.cueList := rfl
@[simp] theorem State.setCircuit_management (c : CircuitIx) (x : Circuit) : (s.setCircuit c x).management = s.management := rfl
@[simp] theorem State.setCircuit_faultLog (c : CircuitIx) (x : Circuit) : (s.setCircuit c x).faultLog = s.faultLog := rfl
@[simp] theorem State.setCircuit_requests (c : CircuitIx) (x : Circuit) : (s.setCircuit c x).requests = s.requests := rfl

/-! ### hand -/

@[simp] theorem State.hand_pending (r : Request) : (s.hand r).pending = s.pending := rfl
@[simp] theorem State.hand_trunk (r : Request) : (s.hand r).trunk = s.trunk := rfl
@[simp] theorem State.hand_ports (r : Request) : (s.hand r).ports = s.ports := rfl
@[simp] theorem State.hand_group (r : Request) : (s.hand r).group = s.group := rfl
@[simp] theorem State.hand_directory (r : Request) : (s.hand r).directory = s.directory := rfl
@[simp] theorem State.hand_walker (r : Request) : (s.hand r).walker = s.walker := rfl
@[simp] theorem State.hand_xps (r : Request) : (s.hand r).xps = s.xps := rfl
@[simp] theorem State.hand_mixer (r : Request) : (s.hand r).mixer = s.mixer := rfl
@[simp] theorem State.hand_circuits (r : Request) : (s.hand r).circuits = s.circuits := rfl
@[simp] theorem State.hand_cueList (r : Request) : (s.hand r).cueList = s.cueList := rfl
@[simp] theorem State.hand_management (r : Request) : (s.hand r).management = s.management := rfl
@[simp] theorem State.hand_faultLog (r : Request) : (s.hand r).faultLog = s.faultLog := rfl
@[simp] theorem State.hand_requests (r : Request) : (s.hand r).requests = s.requests ++ [r] := rfl

/-! ### report -/

@[simp] theorem State.report_pending (k : FaultKind) (l : Location) : (s.report k l).pending = s.pending := rfl
@[simp] theorem State.report_trunk (k : FaultKind) (l : Location) : (s.report k l).trunk = s.trunk := rfl
@[simp] theorem State.report_ports (k : FaultKind) (l : Location) : (s.report k l).ports = s.ports := rfl
@[simp] theorem State.report_group (k : FaultKind) (l : Location) : (s.report k l).group = s.group := rfl
@[simp] theorem State.report_directory (k : FaultKind) (l : Location) : (s.report k l).directory = s.directory := rfl
@[simp] theorem State.report_walker (k : FaultKind) (l : Location) : (s.report k l).walker = s.walker := rfl
@[simp] theorem State.report_xps (k : FaultKind) (l : Location) : (s.report k l).xps = s.xps := rfl
@[simp] theorem State.report_mixer (k : FaultKind) (l : Location) : (s.report k l).mixer = s.mixer := rfl
@[simp] theorem State.report_circuits (k : FaultKind) (l : Location) : (s.report k l).circuits = s.circuits := rfl
@[simp] theorem State.report_cueList (k : FaultKind) (l : Location) : (s.report k l).cueList = s.cueList := rfl
@[simp] theorem State.report_management (k : FaultKind) (l : Location) : (s.report k l).management = s.management := rfl
@[simp] theorem State.report_faultLog (k : FaultKind) (l : Location) : (s.report k l).faultLog = s.faultLog := rfl
@[simp] theorem State.report_requests (k : FaultKind) (l : Location) : (s.report k l).requests = s.requests ++ [.fault k l] := rfl

/-! ### enqueue -/

@[simp] theorem State.enqueue_pending (e : KeyEvent) : (s.enqueue e).pending = s.pending := rfl
@[simp] theorem State.enqueue_trunk (e : KeyEvent) : (s.enqueue e).trunk = s.trunk := rfl
@[simp] theorem State.enqueue_ports (e : KeyEvent) : (s.enqueue e).ports = s.ports := rfl
@[simp] theorem State.enqueue_group (e : KeyEvent) : (s.enqueue e).group = s.group := rfl
@[simp] theorem State.enqueue_directory (e : KeyEvent) : (s.enqueue e).directory = s.directory := rfl
@[simp] theorem State.enqueue_walker (e : KeyEvent) : (s.enqueue e).walker = { s.walker with queue := s.walker.queue ++ [e] } := rfl
@[simp] theorem State.enqueue_xps (e : KeyEvent) : (s.enqueue e).xps = s.xps := rfl
@[simp] theorem State.enqueue_mixer (e : KeyEvent) : (s.enqueue e).mixer = s.mixer := rfl
@[simp] theorem State.enqueue_circuits (e : KeyEvent) : (s.enqueue e).circuits = s.circuits := rfl
@[simp] theorem State.enqueue_cueList (e : KeyEvent) : (s.enqueue e).cueList = s.cueList := rfl
@[simp] theorem State.enqueue_management (e : KeyEvent) : (s.enqueue e).management = s.management := rfl
@[simp] theorem State.enqueue_faultLog (e : KeyEvent) : (s.enqueue e).faultLog = s.faultLog := rfl
@[simp] theorem State.enqueue_requests (e : KeyEvent) : (s.enqueue e).requests = s.requests := rfl

/-! ### execute -/

@[simp] theorem State.execute_pending (e : Execution) : (s.execute e).pending = s.pending := rfl
@[simp] theorem State.execute_trunk (e : Execution) : (s.execute e).trunk = s.trunk := rfl
@[simp] theorem State.execute_ports (e : Execution) : (s.execute e).ports = s.ports := rfl
@[simp] theorem State.execute_group (e : Execution) : (s.execute e).group = s.group := rfl
@[simp] theorem State.execute_directory (e : Execution) : (s.execute e).directory = s.directory := rfl
@[simp] theorem State.execute_walker (e : Execution) : (s.execute e).walker = s.walker := rfl
@[simp] theorem State.execute_xps (e : Execution) : (s.execute e).xps = s.xps := rfl
@[simp] theorem State.execute_mixer (e : Execution) : (s.execute e).mixer = s.mixer := rfl
@[simp] theorem State.execute_circuits (e : Execution) : (s.execute e).circuits = s.circuits := rfl
@[simp] theorem State.execute_cueList (e : Execution) : (s.execute e).cueList = s.cueList := rfl
@[simp] theorem State.execute_management (e : Execution) : (s.execute e).management = { s.management with execution := e } := rfl
@[simp] theorem State.execute_faultLog (e : Execution) : (s.execute e).faultLog = s.faultLog := rfl
@[simp] theorem State.execute_requests (e : Execution) : (s.execute e).requests = s.requests := rfl

/-! ### accessEnded -/

@[simp] theorem State.accessEnded_pending  : (s.accessEnded).pending = s.pending := rfl
@[simp] theorem State.accessEnded_trunk  : (s.accessEnded).trunk = s.trunk := rfl
@[simp] theorem State.accessEnded_ports  : (s.accessEnded).ports = s.ports := rfl
@[simp] theorem State.accessEnded_group  : (s.accessEnded).group = s.group := rfl
@[simp] theorem State.accessEnded_walker  : (s.accessEnded).walker = s.walker := rfl
@[simp] theorem State.accessEnded_xps  : (s.accessEnded).xps = s.xps := rfl
@[simp] theorem State.accessEnded_mixer  : (s.accessEnded).mixer = s.mixer := rfl
@[simp] theorem State.accessEnded_circuits  : (s.accessEnded).circuits = s.circuits := rfl
@[simp] theorem State.accessEnded_cueList  : (s.accessEnded).cueList = s.cueList := rfl
@[simp] theorem State.accessEnded_management  : (s.accessEnded).management = s.management := rfl
@[simp] theorem State.accessEnded_faultLog  : (s.accessEnded).faultLog = s.faultLog := rfl
@[simp] theorem State.accessEnded_requests  : (s.accessEnded).requests = s.requests := rfl

/-! ### walkReleased -/

@[simp] theorem State.walkReleased_pending  : (s.walkReleased).pending = s.pending := rfl
@[simp] theorem State.walkReleased_trunk  : (s.walkReleased).trunk = s.trunk := rfl
@[simp] theorem State.walkReleased_ports  : (s.walkReleased).ports = s.ports := rfl
@[simp] theorem State.walkReleased_group  : (s.walkReleased).group = s.group := rfl
@[simp] theorem State.walkReleased_walker  : (s.walkReleased).walker = s.walker := rfl
@[simp] theorem State.walkReleased_xps  : (s.walkReleased).xps = s.xps := rfl
@[simp] theorem State.walkReleased_mixer  : (s.walkReleased).mixer = s.mixer := rfl
@[simp] theorem State.walkReleased_circuits  : (s.walkReleased).circuits = s.circuits := rfl
@[simp] theorem State.walkReleased_cueList  : (s.walkReleased).cueList = s.cueList := rfl
@[simp] theorem State.walkReleased_management  : (s.walkReleased).management = s.management := rfl
@[simp] theorem State.walkReleased_faultLog  : (s.walkReleased).faultLog = s.faultLog := rfl
@[simp] theorem State.walkReleased_requests  : (s.walkReleased).requests = s.requests := rfl

/-! ### Readings of the state by their fields -/

@[simp] theorem State.clock_eq : s.clock = s.trunk.clock := rfl
@[simp] theorem State.isUp_eq (p : Port) : s.isUp p = (s.ports[p].link == .up) := rfl
@[simp] theorem State.entry_eq (p : Port) (k : Key) : s.entry p k = s.walker.entry p k := rfl

end Sys2Proof.Machine
end

