-- ==== Sys2Proof/Laws/Tables.lean ====
section
/-!
SUPPORT. Reading an entry of a fixed-size table after one entry, or every entry, has been changed. The
readings are written with the index as a number, which is the form simp brings them to.
-/

namespace Sys2Proof

variable {α β : Type} {n : Nat}

@[simp] theorem put_get_same (v : Vector α n) (i : Fin n) (x : α) : (put v i x)[i.val] = x := by
  simp [put]

theorem put_get (v : Vector α n) (i : Fin n) (x : α) (j : Nat) (h : j < n) :
    (put v i x)[j] = if i.val = j then x else v[j] := by
  simp [put, Vector.getElem_set]

theorem put_get_other (v : Vector α n) {i j : Fin n} (h : i ≠ j) (x : α) :
    (put v i x)[j.val] = v[j.val] := by
  rw [put_get, if_neg (by simpa [Fin.ext_iff] using h)]

theorem adjust_get (v : Vector α n) (i : Fin n) (f : α → α) (j : Nat) (h : j < n) :
    (adjust v i f)[j] = if i.val = j then f v[i] else v[j] := put_get v i _ j h

@[simp] theorem each_get (v : Vector α n) (f : Fin n → α → β) (j : Nat) (h : j < n) :
    (each v f)[j] = f ⟨j, h⟩ v[j] := by
  simp [each]

/-- Two tables whose entries agree are equal. -/
theorem table_ext {v w : Vector α n} (h : ∀ i : Fin n, v[i] = w[i]) : v = w := by
  ext i hi
  exact h ⟨i, hi⟩

@[simp] theorem put_self (v : Vector α n) (i : Fin n) : put v i v[i.val] = v := by
  ext j hj
  rw [put_get]
  split <;> simp_all

@[simp] theorem put_put (v : Vector α n) (i : Fin n) (x y : α) : put (put v i x) i y = put v i y := by
  ext j hj
  simp only [put_get]
  split <;> rfl

namespace Machine

@[simp] theorem Walker.setEntry_entry_same (w : Walker) (p : Port) (k : Key) (e : KeyEntry) :
    (w.setEntry p k e).entry p k = e := by
  simp [Walker.setEntry, Walker.entry]

/-- Setting one key entry leaves every other as it was. -/
theorem Walker.setEntry_entry_other (w : Walker) {p q : Port} {j k : Key} (h : p ≠ q ∨ j ≠ k)
    (e : KeyEntry) : (w.setEntry p j e).entry q k = w.entry q k := by
  unfold Walker.setEntry Walker.entry
  by_cases hp : p = q
  · subst hp
    simp [put_get_other _ (h.resolve_left (by simp))]
  · simp [put_get_other _ hp]

@[simp] theorem Walker.setEntry_queue (w : Walker) (p : Port) (k : Key) (e : KeyEntry) :
    (w.setEntry p k e).queue = w.queue := rfl
@[simp] theorem Walker.setEntry_calls (w : Walker) (p : Port) (k : Key) (e : KeyEntry) :
    (w.setEntry p k e).calls = w.calls := rfl
@[simp] theorem Walker.setEntry_job (w : Walker) (p : Port) (k : Key) (e : KeyEntry) :
    (w.setEntry p k e).job = w.job := rfl

end Machine

end Sys2Proof
end

