-- ==== Sys2Proof/Laws/Ops.lean ====
section
/-!
SUPPORT. One lemma for each shared operation that says once everything it can do; proofs cite these and
do not unfold the operations.
-/

namespace Sys2Proof.Machine

variable (s : State)

/-! ### Requests -/

/-- Taking a request: where it is in transit it leaves, once, and the effect follows; else nothing. -/
theorem State.take_cases (r : Request) (effect : State → State) :
    (r ∈ s.requests ∧ s.take r effect = effect (s.setRequests (s.requests.erase r)))
      ∨ (r ∉ s.requests ∧ s.take r effect = s) := by
  unfold State.take
  by_cases h : r ∈ s.requests
  · exact .inl ⟨h, if_pos h⟩
  · exact .inr ⟨h, if_neg h⟩

theorem State.take_of_mem {r : Request} (h : r ∈ s.requests) (effect : State → State) :
    s.take r effect = effect (s.setRequests (s.requests.erase r)) := if_pos h

theorem State.take_of_not_mem {r : Request} (h : r ∉ s.requests) (effect : State → State) :
    s.take r effect = s := if_neg h

/-- Handing over several requests appends them in order. -/
theorem State.foldl_hand (rs : List Request) :
    rs.foldl State.hand s = s.setRequests (s.requests ++ rs) := by
  induction rs generalizing s with
  | nil => simp
  | cons r rest ih => simp [ih, State.hand]

/-- Reporting several faults appends their reports in order. -/
theorem State.reportAll_eq (faults : List (FaultKind × Location)) :
    s.reportAll faults = s.setRequests (s.requests ++ faults.map fun f => .fault f.1 f.2) := by
  unfold State.reportAll
  induction faults generalizing s with
  | nil => simp
  | cons f rest ih =>
    rw [List.foldl_cons, ih]
    simp [State.report, State.hand]

/-! ### Walks that are to be suppressed (R71) -/

/-- A walk in flight for one of the tags that has not decided is marked; otherwise nothing changes. -/
theorem State.suppress_cases (these : Tag → Bool) :
    (∃ w rest, s.walker.job = .walking w rest ∧ w.phase = .read ∧ these w.tag = true
      ∧ s.suppress these = s.setJob (.walking { w with suppressed := true } rest))
    ∨ ((∀ w rest, s.walker.job = .walking w rest → w.phase = .read → these w.tag = false)
      ∧ s.suppress these = s) := by
  unfold State.suppress
  cases hj : s.walker.job with
  | idle => exact .inr ⟨fun _ _ h => (by cases h), rfl⟩
  | waiting tag retry rest => exact .inr ⟨fun _ _ h => (by cases h), rfl⟩
  | walking w rest =>
    by_cases h : w.phase = .read ∧ these w.tag = true
    · exact .inl ⟨w, rest, rfl, h.1, h.2, if_pos h⟩
    · refine .inr ⟨fun _ _ e hp => ?_, if_neg h⟩
      cases e
      exact Bool.eq_false_iff.2 fun ht => h ⟨hp, ht⟩

section
variable (these : Tag → Bool)

@[simp] theorem State.suppress_pending : (s.suppress these).pending = s.pending := by
  rcases s.suppress_cases these with ⟨_, _, _, _, _, h⟩ | ⟨_, h⟩ <;> simp [h]
@[simp] theorem State.suppress_trunk : (s.suppress these).trunk = s.trunk := by
  rcases s.suppress_cases these with ⟨_, _, _, _, _, h⟩ | ⟨_, h⟩ <;> simp [h]
@[simp] theorem State.suppress_ports : (s.suppress these).ports = s.ports := by
  rcases s.suppress_cases these with ⟨_, _, _, _, _, h⟩ | ⟨_, h⟩ <;> simp [h]
@[simp] theorem State.suppress_group : (s.suppress these).group = s.group := by
  rcases s.suppress_cases these with ⟨_, _, _, _, _, h⟩ | ⟨_, h⟩ <;> simp [h]
@[simp] theorem State.suppress_directory : (s.suppress these).directory = s.directory := by
  rcases s.suppress_cases these with ⟨_, _, _, _, _, h⟩ | ⟨_, h⟩ <;> simp [h]
@[simp] theorem State.suppress_xps : (s.suppress these).xps = s.xps := by
  rcases s.suppress_cases these with ⟨_, _, _, _, _, h⟩ | ⟨_, h⟩ <;> simp [h]
@[simp] theorem State.suppress_mixer : (s.suppress these).mixer = s.mixer := by
  rcases s.suppress_cases these with ⟨_, _, _, _, _, h⟩ | ⟨_, h⟩ <;> simp [h]
@[simp] theorem State.suppress_circuits : (s.suppress these).circuits = s.circuits := by
  rcases s.suppress_cases these with ⟨_, _, _, _, _, h⟩ | ⟨_, h⟩ <;> simp [h]
@[simp] theorem State.suppress_cueList : (s.suppress these).cueList = s.cueList := by
  rcases s.suppress_cases these with ⟨_, _, _, _, _, h⟩ | ⟨_, h⟩ <;> simp [h]
@[simp] theorem State.suppress_management : (s.suppress these).management = s.management := by
  rcases s.suppress_cases these with ⟨_, _, _, _, _, h⟩ | ⟨_, h⟩ <;> simp [h]
@[simp] theorem State.suppress_faultLog : (s.suppress these).faultLog = s.faultLog := by
  rcases s.suppress_cases these with ⟨_, _, _, _, _, h⟩ | ⟨_, h⟩ <;> simp [h]
@[simp] theorem State.suppress_requests : (s.suppress these).requests = s.requests := by
  rcases s.suppress_cases these with ⟨_, _, _, _, _, h⟩ | ⟨_, h⟩ <;> simp [h]
/-- The mark and the record of a port do not meet. -/
theorem State.suppress_setPort (p : Port) (x : StationPort) :
    (s.suppress these).setPort p x = (s.setPort p x).suppress these := by
  rcases s.suppress_cases these with ⟨w, rest, hj, hp, ht, h⟩ | ⟨hn, h⟩
  · rw [h, State.suppress, show (s.setPort p x).walker.job = .walking w rest from hj]
    exact (if_pos ⟨hp, ht⟩).symm
  · rw [h]
    rcases (s.setPort p x).suppress_cases these with ⟨w, rest, hj, hp, ht, _⟩ | ⟨_, h'⟩
    · exact absurd ht (by rw [hn w rest hj hp]; decide)
    · exact h'.symm

@[simp] theorem State.suppress_entry (p : Port) (k : Key) : (s.suppress these).entry p k = s.entry p k := by
  rcases s.suppress_cases these with ⟨_, _, _, _, _, h⟩ | ⟨_, h⟩
  · rw [h]; rfl
  · rw [h]
@[simp] theorem State.suppress_calls : (s.suppress these).walker.calls = s.walker.calls := by
  rcases s.suppress_cases these with ⟨_, _, _, _, _, h⟩ | ⟨_, h⟩ <;> simp [h]
@[simp] theorem State.suppress_queue : (s.suppress these).walker.queue = s.walker.queue := by
  rcases s.suppress_cases these with ⟨_, _, _, _, _, h⟩ | ⟨_, h⟩ <;> simp [h]

end

/-! ### Notices (R164) -/

/-- Offering a notice uses its sequence number; it joins a queue with room, and otherwise a
NOTICE_OVERRUN is reported. Nothing else changes. -/
theorem State.offer_cases (body : NoticeBody) :
    (s.management.notices.length < 16 ∧
      s.offer body = s.setManagement { s.management with
        notices := s.management.notices ++ [⟨s.management.seq, body⟩]
        seq := s.management.seq + 1 })
    ∨ (16 ≤ s.management.notices.length ∧
      s.offer body = (s.setManagement { s.management with seq := s.management.seq + 1 }).report
        .noticeOverrun .nowhere) := by
  unfold State.offer
  by_cases h : s.management.notices.length < 16
  · exact .inl ⟨h, if_pos h⟩
  · exact .inr ⟨by omega, if_neg h⟩

theorem State.offer_of_room {body : NoticeBody} (h : s.management.notices.length < 16) :
    s.offer body = s.setManagement { s.management with
      notices := s.management.notices ++ [⟨s.management.seq, body⟩]
      seq := s.management.seq + 1 } := if_pos h

section
variable (body : NoticeBody)

@[simp] theorem State.offer_pending : (s.offer body).pending = s.pending := by
  rcases s.offer_cases body with ⟨_, h⟩ | ⟨_, h⟩ <;> simp [h]
@[simp] theorem State.offer_trunk : (s.offer body).trunk = s.trunk := by
  rcases s.offer_cases body with ⟨_, h⟩ | ⟨_, h⟩ <;> simp [h]
@[simp] theorem State.offer_ports : (s.offer body).ports = s.ports := by
  rcases s.offer_cases body with ⟨_, h⟩ | ⟨_, h⟩ <;> simp [h]
@[simp] theorem State.offer_group : (s.offer body).group = s.group := by
  rcases s.offer_cases body with ⟨_, h⟩ | ⟨_, h⟩ <;> simp [h]
@[simp] theorem State.offer_directory : (s.offer body).directory = s.directory := by
  rcases s.offer_cases body with ⟨_, h⟩ | ⟨_, h⟩ <;> simp [h]
@[simp] theorem State.offer_walker : (s.offer body).walker = s.walker := by
  rcases s.offer_cases body with ⟨_, h⟩ | ⟨_, h⟩ <;> simp [h]
@[simp] theorem State.offer_xps : (s.offer body).xps = s.xps := by
  rcases s.offer_cases body with ⟨_, h⟩ | ⟨_, h⟩ <;> simp [h]
@[simp] theorem State.offer_mixer : (s.offer body).mixer = s.mixer := by
  rcases s.offer_cases body with ⟨_, h⟩ | ⟨_, h⟩ <;> simp [h]
@[simp] theorem State.offer_circuits : (s.offer body).circuits = s.circuits := by
  rcases s.offer_cases body with ⟨_, h⟩ | ⟨_, h⟩ <;> simp [h]
@[simp] theorem State.offer_cueList : (s.offer body).cueList = s.cueList := by
  rcases s.offer_cases body with ⟨_, h⟩ | ⟨_, h⟩ <;> simp [h]
@[simp] theorem State.offer_faultLog : (s.offer body).faultLog = s.faultLog := by
  rcases s.offer_cases body with ⟨_, h⟩ | ⟨_, h⟩ <;> simp [h]
@[simp] theorem State.offer_commands : (s.offer body).management.commands = s.management.commands := by
  rcases s.offer_cases body with ⟨_, h⟩ | ⟨_, h⟩ <;> simp [h]
@[simp] theorem State.offer_replies : (s.offer body).management.replies = s.management.replies := by
  rcases s.offer_cases body with ⟨_, h⟩ | ⟨_, h⟩ <;> simp [h]
@[simp] theorem State.offer_execution : (s.offer body).management.execution = s.management.execution := by
  rcases s.offer_cases body with ⟨_, h⟩ | ⟨_, h⟩ <;> simp [h]
@[simp] theorem State.offer_lock : (s.offer body).management.lock = s.management.lock := by
  rcases s.offer_cases body with ⟨_, h⟩ | ⟨_, h⟩ <;> simp [h]

end

/-! ### CUE_OPEN events (R61) -/

/-- A CUE_OPEN joins a queue with room, and otherwise a QUEUE_FULL is reported. -/
theorem State.postCueOpen_cases (c : CircuitIx) :
    (s.walker.queue.length < 32 ∧ s.postCueOpen c = s.enqueue (.cueOpen c))
      ∨ (32 ≤ s.walker.queue.length ∧ s.postCueOpen c = s.report .queueFull (.circuit c)) := by
  unfold State.postCueOpen
  by_cases h : s.walker.queue.length < 32
  · exact .inl ⟨h, if_pos h⟩
  · exact .inr ⟨by omega, if_neg h⟩

/-! ### Commands and replies (R159 to R161) -/

/-- Placing the reply of the command at the head. -/
theorem State.answer_of_commands {c : Command} {rest : List Command}
    (h : s.management.commands = c :: rest) (a : Answer) :
    s.answer a = s.setManagement { s.management with
      commands := rest
      replies := s.management.replies ++ [⟨c.tag, a.status, a.clamped, parameters a.params⟩]
      execution := .none } := by
  unfold State.answer
  rw [h]

/-- Answering changes the management engine alone. -/
theorem State.answer_eq (a : Answer) : ∃ m, s.answer a = s.setManagement m := by
  unfold State.answer
  split
  · exact ⟨s.management, rfl⟩
  · exact ⟨_, rfl⟩

section
variable (a : Answer)

@[simp] theorem State.answer_pending : (s.answer a).pending = s.pending := by
  obtain ⟨m, h⟩ := s.answer_eq a; simp [h]
@[simp] theorem State.answer_trunk : (s.answer a).trunk = s.trunk := by
  obtain ⟨m, h⟩ := s.answer_eq a; simp [h]
@[simp] theorem State.answer_ports : (s.answer a).ports = s.ports := by
  obtain ⟨m, h⟩ := s.answer_eq a; simp [h]
@[simp] theorem State.answer_group : (s.answer a).group = s.group := by
  obtain ⟨m, h⟩ := s.answer_eq a; simp [h]
@[simp] theorem State.answer_directory : (s.answer a).directory = s.directory := by
  obtain ⟨m, h⟩ := s.answer_eq a; simp [h]
@[simp] theorem State.answer_walker : (s.answer a).walker = s.walker := by
  obtain ⟨m, h⟩ := s.answer_eq a; simp [h]
@[simp] theorem State.answer_xps : (s.answer a).xps = s.xps := by
  obtain ⟨m, h⟩ := s.answer_eq a; simp [h]
@[simp] theorem State.answer_mixer : (s.answer a).mixer = s.mixer := by
  obtain ⟨m, h⟩ := s.answer_eq a; simp [h]
@[simp] theorem State.answer_circuits : (s.answer a).circuits = s.circuits := by
  obtain ⟨m, h⟩ := s.answer_eq a; simp [h]
@[simp] theorem State.answer_cueList : (s.answer a).cueList = s.cueList := by
  obtain ⟨m, h⟩ := s.answer_eq a; simp [h]
@[simp] theorem State.answer_faultLog : (s.answer a).faultLog = s.faultLog := by
  obtain ⟨m, h⟩ := s.answer_eq a; simp [h]
@[simp] theorem State.answer_requests : (s.answer a).requests = s.requests := by
  obtain ⟨m, h⟩ := s.answer_eq a; simp [h]

end

/-- A reply that no command reserved takes a free entry, and is dropped where there is none. -/
theorem State.reply_cases (r : Reply) :
    (s.management.repliesTaken < 8 ∧
      s.reply r = s.setManagement { s.management with replies := s.management.replies ++ [r] })
    ∨ (8 ≤ s.management.repliesTaken ∧ s.reply r = s) := by
  unfold State.reply Management.replyRoom
  by_cases h : s.management.repliesTaken < 8
  · exact .inl ⟨h, if_pos (decide_eq_true h)⟩
  · exact .inr ⟨by omega, if_neg fun h' => h (of_decide_eq_true h')⟩

/-- Beginning a command (R160, R161): nothing happens where no such command may begin; it is answered
LOCKED where the lock refuses it, and is carried out otherwise. -/
theorem State.begin_cases (code : Nat) (effect : List Byte → State → State) :
    s.begin code effect = s
    ∨ ∃ c rest, s.management.commands = c :: rest ∧ s.mayBegin = true ∧ c.code.toNat = code ∧
        ((s.management.lock.refuses c.code = true ∧ s.begin code effect = s.answer (.bare .locked))
          ∨ (s.management.lock.refuses c.code = false ∧ s.begin code effect = effect c.params s)) := by
  unfold State.begin
  split
  · exact .inl rfl
  · rename_i c rest h
    by_cases hb : s.mayBegin ∧ c.code.toNat = code
    · right
      refine ⟨c, rest, h, by simpa using hb.1, hb.2, ?_⟩
      rw [if_pos hb]
      cases hl : s.management.lock.refuses c.code <;> simp
    · exact .inl (if_neg hb)

/-- A command that may begin and that the lock does not refuse is carried out. -/
theorem State.begin_of_allowed {code : Nat} {c : Command} {rest : List Command}
    (hc : s.management.commands = c :: rest) (hb : s.mayBegin = true) (hcode : c.code.toNat = code)
    (hl : s.management.lock.refuses c.code = false) (effect : List Byte → State → State) :
    s.begin code effect = effect c.params s := by
  unfold State.begin
  simp [hc, hb, hcode, hl]

/-- What it takes that a command may begin. -/
theorem State.mayBegin_iff : s.mayBegin = true ↔
    s.directory.initialising = false ∧ s.management.execution = .none
      ∧ s.management.replies.length < 8 := by
  unfold State.mayBegin Management.replyRoom Management.repliesTaken
  by_cases h : s.management.execution = .none <;> simp [h]

/-! ### Soft reset (R174) -/

/-- A block has taken its request of a soft reset: the reply follows the last of them. -/
theorem State.resetTaken_cases :
    s.resetTaken = s
    ∨ ∃ n, s.management.execution = .softReset n ∧ s.requests.any Request.ofReset = false
        ∧ s.resetTaken = s.answer (.ok [byte n]) := by
  unfold State.resetTaken
  split
  · rename_i n h
    by_cases hr : s.requests.any Request.ofReset = true
    · exact .inl (if_pos hr)
    · exact .inr ⟨n, h, by simpa using hr, if_neg hr⟩
  all_goals exact .inl rfl

end Sys2Proof.Machine
end

