-- ==== Sys2Proof/Laws/Cue.lean ====
section
/-!
SUPPORT. What the shared operations of the cue engine do: offering the notices of several circuits, giving
STANDBY or GO to one circuit, and giving them to every circuit of a cue list entry.
-/

namespace Sys2Proof.Machine

variable (s : State)

/-! ### The notices of several circuits (R98) -/

section
variable (bodies : List NoticeBody)

@[simp] theorem State.foldl_offer_circuits :
    (bodies.foldl State.offer s).circuits = s.circuits := by
  induction bodies generalizing s with
  | nil => rfl
  | cons b rest ih => simp [ih]

@[simp] theorem State.foldl_offer_trunk : (bodies.foldl State.offer s).trunk = s.trunk := by
  induction bodies generalizing s with
  | nil => rfl
  | cons b rest ih => simp [ih]

end

/-- The CUE_EVENT of a circuit in its present state. -/
def State.cueEvent (c : CircuitIx) : NoticeBody :=
  .cueEvent c s.circuits[c].state s.circuits[c].cue s.circuits[c].late s.clock

/-- The circuits whose state differs from `before`, in circuit order. -/
def State.changedFrom (before : Vector Circuit 24) : List CircuitIx :=
  (List.finRange 24).filter fun c => before[c].state != s.circuits[c].state

/-- One CUE_EVENT for each circuit whose state changed, in circuit order. -/
theorem State.offerChanges_eq (before : Vector Circuit 24) :
    s.offerChanges before = ((s.changedFrom before).map s.cueEvent).foldl State.offer s := by
  have key : ∀ (cs : List CircuitIx) (t : State), t.circuits = s.circuits → t.trunk = s.trunk →
      cs.foldl (fun u c => if before[c].state = u.circuits[c].state then u
        else u.offerCueEvent c u.circuits[c].cue) t
      = ((cs.filter fun c => before[c].state != s.circuits[c].state).map s.cueEvent).foldl
          State.offer t := by
    intro cs
    induction cs with
    | nil => intros; rfl
    | cons c rest ih =>
      intro t hc ht
      rw [List.foldl_cons]
      by_cases h : before[c].state = s.circuits[c].state
      · rw [if_pos (by rw [hc]; exact h), ih t hc ht, List.filter_cons_of_neg (by simp at h; simp [h])]
      · rw [if_neg (by rw [hc]; exact h),
          ih _ (by simp [State.offerCueEvent, hc]) (by simp [State.offerCueEvent, ht]),
          List.filter_cons_of_pos (by simp at h; simp [h]), List.map_cons, List.foldl_cons]
        simp [State.offerCueEvent, State.cueEvent, State.clock, hc, ht]
  exact key _ s rfl rfl

/-- No notice where no state changed. -/
theorem State.offerChanges_none {before : Vector Circuit 24}
    (h : ∀ c : CircuitIx, before[c].state = s.circuits[c].state) : s.offerChanges before = s := by
  rw [s.offerChanges_eq]
  have : s.changedFrom before = [] := by
    unfold State.changedFrom
    rw [List.filter_eq_nil_iff]
    intro c _
    have := h c
    simp only [Fin.getElem_fin] at this
    simp [this]
  rw [this]
  rfl

theorem filter_beq_finRange : ∀ c : CircuitIx, ((List.finRange 24).filter fun d => d == c) = [c] := by
  decide

/-- One notice where one circuit's state changed. -/
theorem State.offerChanges_one {before : Vector Circuit 24} {c : CircuitIx}
    (hc : before[c].state ≠ s.circuits[c].state)
    (h : ∀ d : CircuitIx, d ≠ c → before[d].state = s.circuits[d].state) :
    s.offerChanges before = s.offer (s.cueEvent c) := by
  rw [s.offerChanges_eq]
  have : s.changedFrom before = [c] := by
    unfold State.changedFrom
    rw [show (fun d : CircuitIx => before[d].state != s.circuits[d].state) = (fun d => d == c) from by
      funext d
      by_cases hd : d = c
      · subst hd
        simpa using hc
      · have := h d hd
        simp only [Fin.getElem_fin] at this
        simp [this, hd]]
    exact filter_beq_finRange c
  rw [this]
  rfl

/-! ### STANDBY and GO without their notices (R88, R92) -/

/-- A circuit that a STANDBY reaches, as it is afterwards. -/
def Circuit.warned (x : Circuit) (cue : Option CueNumber) (clock : Stamp) : Circuit :=
  match x.state with
  | .idle => if x.members.isEmpty then x else x.enterStandby cue clock
  | .standby | .ready | .late => x
  | .go => { x with pending := true, pendingCue := cue }

/-- The circuit posts a CUE_OPEN when a STANDBY reaches it. -/
def Circuit.opens (x : Circuit) : Bool := x.state == .idle && !x.members.isEmpty

/-- The circuit refuses a STANDBY. -/
def Circuit.refusesStandby (x : Circuit) : Bool := x.state == .idle && x.members.isEmpty

/-- Post a list of CUE_OPEN events. -/
def State.postAll (cs : List CircuitIx) : State := cs.foldl State.postCueOpen s

/-- What a STANDBY does to one circuit and to the key event queue, and its result. -/
theorem State.standbyQuiet_eq (c : CircuitIx) (cue : Option CueNumber) :
    s.standbyQuiet c cue =
      (let u := s.setCircuit c (s.circuits[c].warned cue s.clock)
       if s.circuits[c].opens then u.postCueOpen c else u,
       if s.circuits[c].refusesStandby then .emptyCircuit else .done) := by
  have self : s.setCircuit c s.circuits[c.val] = s := by
    unfold State.setCircuit
    rw [put_self]
    rfl
  unfold State.standbyQuiet Circuit.warned Circuit.opens Circuit.refusesStandby
  cases h : s.circuits[c.val].state <;> simp [h, self]
  by_cases hm : s.circuits[c.val].members = [] <;> simp [hm, self]

@[simp] theorem State.postCueOpen_circuits (c : CircuitIx) : (s.postCueOpen c).circuits = s.circuits := by
  rcases s.postCueOpen_cases c with ⟨_, h⟩ | ⟨_, h⟩ <;> rw [h] <;> rfl
@[simp] theorem State.postCueOpen_trunk (c : CircuitIx) : (s.postCueOpen c).trunk = s.trunk := by
  rcases s.postCueOpen_cases c with ⟨_, h⟩ | ⟨_, h⟩ <;> rw [h] <;> rfl

/-- A CUE_OPEN posted after a circuit has changed is posted as before it changed. -/
theorem State.postAll_setCircuits (cs : List CircuitIx) (v : Vector Circuit 24) :
    (s.postAll cs).setCircuits v = (s.setCircuits v).postAll cs := by
  unfold State.postAll
  induction cs generalizing s with
  | nil => rfl
  | cons c rest ih =>
    rw [List.foldl_cons, ih, List.foldl_cons]
    congr 1
    rcases s.postCueOpen_cases c with ⟨h1, h2⟩ | ⟨h1, h2⟩
    · rw [h2]; rcases (s.setCircuits v).postCueOpen_cases c with ⟨h3, h4⟩ | ⟨h3, h4⟩
      · rw [h4]; rfl
      · exact absurd h1 (by simpa using h3)
    · rw [h2]; rcases (s.setCircuits v).postCueOpen_cases c with ⟨h3, h4⟩ | ⟨h3, h4⟩
      · exact absurd h3 (by simpa using h1)
      · rw [h4]; rfl

/-- CUE_OPEN events fill the queue up to 32, and each that finds it full is reported. -/
theorem State.postAll_eq (cs : List CircuitIx) : s.postAll cs =
    (s.setWalker { s.walker with queue := s.walker.queue
        ++ (cs.take (32 - s.walker.queue.length)).map KeyEvent.cueOpen }).setRequests
      (s.requests ++ (cs.drop (32 - s.walker.queue.length)).map fun c =>
        Request.fault .queueFull (.circuit c)) := by
  unfold State.postAll
  induction cs generalizing s with
  | nil =>
    simp
    rfl
  | cons c rest ih =>
    rw [List.foldl_cons, ih]
    rcases s.postCueOpen_cases c with ⟨h1, h2⟩ | ⟨h1, h2⟩
    · rw [h2]
      obtain ⟨n, hn⟩ : ∃ n, 32 - s.walker.queue.length = n + 1 := ⟨31 - s.walker.queue.length, by omega⟩
      have hn' : 32 - (s.walker.queue.length + 1) = n := by omega
      simp [State.enqueue, hn, hn']
    · rw [h2]
      have hn : 32 - s.walker.queue.length = 0 := by omega
      simp [State.report, State.hand, hn]
      rfl

/-- The circuits after STANDBY reached those of a list. -/
def warnedAll (cs : List CircuitIx) (cue : CueNumber) (clock : Stamp) (v : Vector Circuit 24) :
    Vector Circuit 24 :=
  each v fun c x => if c ∈ cs then x.warned (some cue) clock else x

/-- STANDBY given to each circuit of a list without repeats (R116, R117). -/
theorem State.standbyAll_eq (cue : CueNumber) (cs : List CircuitIx) (h : cs.Nodup) :
    (State.standbyAll cue cs s).1 =
        (s.setCircuits (warnedAll cs cue s.clock s.circuits)).postAll
          (cs.filter fun c => s.circuits[c].opens)
      ∧ ∀ c : CircuitIx, (State.standbyAll cue cs s).2.getLsbD c.val =
          (decide (c ∈ cs) && s.circuits[c].refusesStandby) := by
  induction cs generalizing s with
  | nil =>
    have : warnedAll [] cue s.clock s.circuits = s.circuits := by
      ext i hi : 1
      simp [warnedAll]
    refine ⟨?_, by simp [State.standbyAll]⟩
    rw [this]
    rfl
  | cons c rest ih =>
    obtain ⟨hc, hr⟩ := List.nodup_cons.1 h
    have hq := s.standbyQuiet_eq c (some cue)
    generalize hu : s.standbyQuiet c (some cue) = r at hq
    have hcirc : r.1.circuits = put s.circuits c (s.circuits[c].warned (some cue) s.clock) := by
      rw [hq]
      simp only
      split <;> simp
    have htr : r.1.trunk = s.trunk := by
      rw [hq]
      simp only
      split <;> simp
    have hother : ∀ d : CircuitIx, d ∈ rest → r.1.circuits[d] = s.circuits[d] := by
      intro d hd
      have : c ≠ d := fun e => hc (e ▸ hd)
      simp only [Fin.getElem_fin, hcirc]
      exact put_get_other _ this _
    have hw : warnedAll rest cue r.1.clock r.1.circuits = warnedAll (c :: rest) cue s.clock s.circuits := by
      ext i hi : 1
      simp only [warnedAll, each_get, hcirc, put_get, State.clock, htr]
      by_cases e : c.val = i
      · subst e
        simp [hc]
      · have : ¬ (⟨i, hi⟩ : CircuitIx) = c := fun e' => e (by rw [← e'])
        simp [e, this]
    have hf : (rest.filter fun d => r.1.circuits[d].opens) = rest.filter fun d => s.circuits[d].opens :=
      List.filter_congr fun d hd => by rw [hother d hd]
    obtain ⟨i1, i2⟩ := ih r.1 hr
    refine ⟨?_, fun d => ?_⟩
    · simp only [State.standbyAll, hu]
      rw [i1, hw, hf]
      by_cases ho : s.circuits[c].opens = true
      · rw [List.filter_cons_of_pos (by simpa using ho)]
        simp only [State.postAll, List.foldl_cons]
        congr 1
        rw [hq]
        simp only [ho, if_true]
        have := State.postAll_setCircuits (s.setCircuit c (s.circuits[c].warned (some cue) s.clock)) [c]
          (warnedAll (c :: rest) cue s.clock s.circuits)
        simpa [State.postAll, State.setCircuit] using this
      · rw [List.filter_cons_of_neg (by simpa using ho), hq]
        simp only [ho, Bool.false_eq_true, if_false]
        rfl
    · simp only [State.standbyAll, hu]
      have h2 : r.2 = if s.circuits[c].refusesStandby then .emptyCircuit else .done := by rw [hq]
      by_cases hd : d = c
      · subst hd
        have hz : (State.standbyAll cue rest r.1).2.getLsbD d.val = false := by
          rw [i2 d]
          simp [hc]
        by_cases hs : s.circuits[d].refusesStandby = true
        · rw [h2, hs]
          simp [d.isLt]
        · simp only [Bool.not_eq_true] at hs
          rw [h2, hs]
          simp only [Bool.false_eq_true, if_false, if_true, hz]
          simp
      · have hi := i2 d
        have hmem : decide (d ∈ c :: rest) = decide (d ∈ rest) := by simp [hd]
        have hb : (BitVec.twoPow 24 c.val).getLsbD d.val = false := by
          rw [BitVec.getLsbD_twoPow]
          have : c.val ≠ d.val := fun e => hd (Fin.ext e.symm)
          simp [this]
        have hv : (decide (d ∈ rest) && r.1.circuits[d].refusesStandby)
            = (decide (d ∈ rest) && s.circuits[d].refusesStandby) := by
          by_cases hm : d ∈ rest
          · rw [hother d hm]
          · simp [hm]
        rw [hmem, ← hv, ← hi]
        split
        · rfl
        · rw [BitVec.getLsbD_or, hb, Bool.or_false]

/-- The circuits after GO reached those of a list whose checks accept it. -/
theorem State.goAll_eq (cue : CueNumber) (cs : List CircuitIx) (h : cs.Nodup)
    (hg : ∀ c ∈ cs, s.circuits[c].goCheck = .done) :
    s.goAll cue cs = s.setCircuits (each s.circuits fun c x =>
      if c ∈ cs then x.enterGo (some cue) s.clock else x) := by
  unfold State.goAll
  induction cs generalizing s with
  | nil =>
    have : (each s.circuits fun c x => if c ∈ ([] : List CircuitIx) then x.enterGo (some cue) s.clock
        else x) = s.circuits := by
      ext i hi : 1
      simp
    rw [this, State.setCircuits_self]
    rfl
  | cons c rest ih =>
    obtain ⟨hc, hr⟩ := List.nodup_cons.1 h
    rw [List.foldl_cons]
    have hq : (s.goQuiet c (some cue)).1 = s.setCircuit c (s.circuits[c].enterGo (some cue) s.clock) := by
      unfold State.goQuiet
      simp only
      rw [if_pos (hg c (by simp))]
    rw [hq, ih _ hr (fun d hd => by
      have : c ≠ d := fun e => hc (e ▸ hd)
      have := put_get_other s.circuits this (s.circuits[c].enterGo (some cue) s.clock)
      simp only [State.setCircuit_circuits, Fin.getElem_fin] at this ⊢
      rw [this]
      exact hg d (by simp [hd]))]
    simp only [State.setCircuit, State.setCircuits_setCircuits]
    refine congrArg s.setCircuits ?_
    ext i hi : 1
    simp only [each_get, State.setCircuits_circuits, put_get, State.clock, State.setCircuits_trunk]
    by_cases e : c.val = i
    · subst e
      simp [hc]
    · have : ¬ (⟨i, hi⟩ : CircuitIx) = c := fun e' => e (by rw [← e'])
      simp [e, this]

end Sys2Proof.Machine
end

