-- ==== Sys2Proof/Laws/Frame.lean ====
section
/-!
SUPPORT. What the parts of a frame start do to each field of the state.
-/

namespace Sys2Proof.Machine

variable (s : State)

/-! ### Filling the cell field (R153) -/

/-- Filling a free cell field takes the head of the reply queue, else of the notice queue, else nothing. -/
theorem State.fillCell_cases :
    (∃ r rs, s.management.replies = r :: rs ∧ s.fillCell =
      (r.cell s.trunk.position s.management.credit,
        s.setManagement { s.management with replies := rs }))
    ∨ (∃ n ns, s.management.replies = [] ∧ s.management.notices = n :: ns ∧ s.fillCell =
      (n.cell s.trunk.position s.management.credit,
        s.setManagement { s.management with notices := ns }))
    ∨ (s.management.replies = [] ∧ s.management.notices = [] ∧ s.fillCell = (idleCell, s)) := by
  unfold State.fillCell
  simp only
  split
  · exact .inl ⟨_, _, ‹_›, rfl⟩
  · exact .inr (.inl ⟨_, _, ‹_›, ‹_›, rfl⟩)
  · exact .inr (.inr ⟨‹_›, ‹_›, rfl⟩)

/-- Filling changes the management engine alone. -/
theorem State.fillCell_eq : ∃ m, s.fillCell.2 = s.setManagement m := by
  rcases s.fillCell_cases with ⟨r, rs, _, h⟩ | ⟨n, ns, _, _, h⟩ | ⟨_, _, h⟩
  · exact ⟨_, by rw [h]⟩
  · exact ⟨_, by rw [h]⟩
  · exact ⟨s.management, by rw [h]; rfl⟩

@[simp] theorem State.fillCell_pending : s.fillCell.2.pending = s.pending := by
  obtain ⟨m, h⟩ := s.fillCell_eq; simp [h]
@[simp] theorem State.fillCell_trunk : s.fillCell.2.trunk = s.trunk := by
  obtain ⟨m, h⟩ := s.fillCell_eq; simp [h]
@[simp] theorem State.fillCell_ports : s.fillCell.2.ports = s.ports := by
  obtain ⟨m, h⟩ := s.fillCell_eq; simp [h]
@[simp] theorem State.fillCell_group : s.fillCell.2.group = s.group := by
  obtain ⟨m, h⟩ := s.fillCell_eq; simp [h]
@[simp] theorem State.fillCell_directory : s.fillCell.2.directory = s.directory := by
  obtain ⟨m, h⟩ := s.fillCell_eq; simp [h]
@[simp] theorem State.fillCell_walker : s.fillCell.2.walker = s.walker := by
  obtain ⟨m, h⟩ := s.fillCell_eq; simp [h]
@[simp] theorem State.fillCell_xps : s.fillCell.2.xps = s.xps := by
  obtain ⟨m, h⟩ := s.fillCell_eq; simp [h]
@[simp] theorem State.fillCell_mixer : s.fillCell.2.mixer = s.mixer := by
  obtain ⟨m, h⟩ := s.fillCell_eq; simp [h]
@[simp] theorem State.fillCell_circuits : s.fillCell.2.circuits = s.circuits := by
  obtain ⟨m, h⟩ := s.fillCell_eq; simp [h]
@[simp] theorem State.fillCell_cueList : s.fillCell.2.cueList = s.cueList := by
  obtain ⟨m, h⟩ := s.fillCell_eq; simp [h]
@[simp] theorem State.fillCell_faultLog : s.fillCell.2.faultLog = s.faultLog := by
  obtain ⟨m, h⟩ := s.fillCell_eq; simp [h]
@[simp] theorem State.fillCell_requests : s.fillCell.2.requests = s.requests := by
  obtain ⟨m, h⟩ := s.fillCell_eq; simp [h]
@[simp] theorem State.fillCell_commands : s.fillCell.2.management.commands = s.management.commands := by
  rcases s.fillCell_cases with ⟨_, _, _, h⟩ | ⟨_, _, _, _, h⟩ | ⟨_, _, h⟩ <;> simp [h]
@[simp] theorem State.fillCell_seq : s.fillCell.2.management.seq = s.management.seq := by
  rcases s.fillCell_cases with ⟨_, _, _, h⟩ | ⟨_, _, _, _, h⟩ | ⟨_, _, h⟩ <;> simp [h]
@[simp] theorem State.fillCell_lock : s.fillCell.2.management.lock = s.management.lock := by
  rcases s.fillCell_cases with ⟨_, _, _, h⟩ | ⟨_, _, _, _, h⟩ | ⟨_, _, h⟩ <;> simp [h]
@[simp] theorem State.fillCell_execution : s.fillCell.2.management.execution = s.management.execution := by
  rcases s.fillCell_cases with ⟨_, _, _, h⟩ | ⟨_, _, _, _, h⟩ | ⟨_, _, h⟩ <;> simp [h]

/-! ### The parts of a frame start -/

@[simp] theorem State.tickClock_pending : (s.tickClock).pending = s.pending := by
  simp [State.tickClock]
@[simp] theorem State.tickClock_ports : (s.tickClock).ports = s.ports := by
  simp [State.tickClock]
@[simp] theorem State.tickClock_group : (s.tickClock).group = s.group := by
  simp [State.tickClock]
@[simp] theorem State.tickClock_directory : (s.tickClock).directory = s.directory := by
  simp [State.tickClock]
@[simp] theorem State.tickClock_walker : (s.tickClock).walker = s.walker := by
  simp [State.tickClock]
@[simp] theorem State.tickClock_xps : (s.tickClock).xps = s.xps := by
  simp [State.tickClock]
@[simp] theorem State.tickClock_mixer : (s.tickClock).mixer = s.mixer := by
  simp [State.tickClock]
@[simp] theorem State.tickClock_cueList : (s.tickClock).cueList = s.cueList := by
  simp [State.tickClock]
@[simp] theorem State.tickClock_faultLog : (s.tickClock).faultLog = s.faultLog := by
  simp [State.tickClock]
@[simp] theorem State.tickClock_requests : (s.tickClock).requests = s.requests := by
  simp [State.tickClock]

@[simp] theorem State.mix_pending : (s.mix).pending = s.pending := by
  simp [State.mix]
@[simp] theorem State.mix_trunk : (s.mix).trunk = s.trunk := by
  simp [State.mix]
@[simp] theorem State.mix_group : (s.mix).group = s.group := by
  simp [State.mix]
@[simp] theorem State.mix_directory : (s.mix).directory = s.directory := by
  simp [State.mix]
@[simp] theorem State.mix_walker : (s.mix).walker = s.walker := by
  simp [State.mix]
@[simp] theorem State.mix_xps : (s.mix).xps = s.xps := by
  simp [State.mix]
@[simp] theorem State.mix_circuits : (s.mix).circuits = s.circuits := by
  simp [State.mix]
@[simp] theorem State.mix_cueList : (s.mix).cueList = s.cueList := by
  simp [State.mix]
@[simp] theorem State.mix_management : (s.mix).management = s.management := by
  simp [State.mix]
@[simp] theorem State.mix_faultLog : (s.mix).faultLog = s.faultLog := by
  simp [State.mix]
@[simp] theorem State.mix_requests : (s.mix).requests = s.requests := by
  simp [State.mix]

@[simp] theorem State.sendDownlinks_pending (m : MixInput) : (s.sendDownlinks m).pending = s.pending := by
  simp [State.sendDownlinks]
@[simp] theorem State.sendDownlinks_trunk (m : MixInput) : (s.sendDownlinks m).trunk = s.trunk := by
  simp [State.sendDownlinks]
@[simp] theorem State.sendDownlinks_directory (m : MixInput) : (s.sendDownlinks m).directory = s.directory := by
  simp [State.sendDownlinks]
@[simp] theorem State.sendDownlinks_walker (m : MixInput) : (s.sendDownlinks m).walker = s.walker := by
  simp [State.sendDownlinks]
@[simp] theorem State.sendDownlinks_xps (m : MixInput) : (s.sendDownlinks m).xps = s.xps := by
  simp [State.sendDownlinks]
@[simp] theorem State.sendDownlinks_mixer (m : MixInput) : (s.sendDownlinks m).mixer = s.mixer := by
  simp [State.sendDownlinks]
@[simp] theorem State.sendDownlinks_circuits (m : MixInput) : (s.sendDownlinks m).circuits = s.circuits := by
  simp [State.sendDownlinks]
@[simp] theorem State.sendDownlinks_cueList (m : MixInput) : (s.sendDownlinks m).cueList = s.cueList := by
  simp [State.sendDownlinks]
@[simp] theorem State.sendDownlinks_management (m : MixInput) : (s.sendDownlinks m).management = s.management := by
  simp [State.sendDownlinks]
@[simp] theorem State.sendDownlinks_faultLog (m : MixInput) : (s.sendDownlinks m).faultLog = s.faultLog := by
  simp [State.sendDownlinks]
@[simp] theorem State.sendDownlinks_requests (m : MixInput) : (s.sendDownlinks m).requests = s.requests := by
  simp [State.sendDownlinks]

@[simp] theorem State.sendFrame_pending (f : TrunkFrame) (b : Bool) : (s.sendFrame f b).pending = s.pending := by
  simp [State.sendFrame]
@[simp] theorem State.sendFrame_ports (f : TrunkFrame) (b : Bool) : (s.sendFrame f b).ports = s.ports := by
  simp [State.sendFrame]
@[simp] theorem State.sendFrame_group (f : TrunkFrame) (b : Bool) : (s.sendFrame f b).group = s.group := by
  simp [State.sendFrame]
@[simp] theorem State.sendFrame_directory (f : TrunkFrame) (b : Bool) : (s.sendFrame f b).directory = s.directory := by
  simp [State.sendFrame]
@[simp] theorem State.sendFrame_walker (f : TrunkFrame) (b : Bool) : (s.sendFrame f b).walker = s.walker := by
  simp [State.sendFrame]
@[simp] theorem State.sendFrame_xps (f : TrunkFrame) (b : Bool) : (s.sendFrame f b).xps = s.xps := by
  simp [State.sendFrame]
@[simp] theorem State.sendFrame_mixer (f : TrunkFrame) (b : Bool) : (s.sendFrame f b).mixer = s.mixer := by
  simp [State.sendFrame]
@[simp] theorem State.sendFrame_circuits (f : TrunkFrame) (b : Bool) : (s.sendFrame f b).circuits = s.circuits := by
  simp [State.sendFrame]
@[simp] theorem State.sendFrame_cueList (f : TrunkFrame) (b : Bool) : (s.sendFrame f b).cueList = s.cueList := by
  simp [State.sendFrame]
@[simp] theorem State.sendFrame_management (f : TrunkFrame) (b : Bool) : (s.sendFrame f b).management = s.management := by
  simp [State.sendFrame]
@[simp] theorem State.sendFrame_faultLog (f : TrunkFrame) (b : Bool) : (s.sendFrame f b).faultLog = s.faultLog := by
  simp [State.sendFrame]
@[simp] theorem State.sendFrame_requests (f : TrunkFrame) (b : Bool) : (s.sendFrame f b).requests = s.requests := by
  simp [State.sendFrame]

/-- The outgoing frame: the trunk port sends it, its cell field being filled first where it is free. -/
theorem State.outgoing_eq (m : MixInput) : ∃ f b,
    s.outgoing m = s.sendFrame f b ∨ s.outgoing m = s.fillCell.2.sendFrame f b := by
  unfold State.outgoing
  simp only
  split
  · exact ⟨_, _, .inl rfl⟩
  · exact ⟨_, _, .inr rfl⟩
  · exact ⟨_, _, .inl rfl⟩
  · exact ⟨_, _, .inl rfl⟩
  · exact ⟨_, _, .inl rfl⟩
  · exact ⟨_, _, .inr rfl⟩

@[simp] theorem State.outgoing_pending (m : MixInput) : (s.outgoing m).pending = s.pending := by
  obtain ⟨f, b, h | h⟩ := s.outgoing_eq m <;> simp [h]
@[simp] theorem State.outgoing_ports (m : MixInput) : (s.outgoing m).ports = s.ports := by
  obtain ⟨f, b, h | h⟩ := s.outgoing_eq m <;> simp [h]
@[simp] theorem State.outgoing_group (m : MixInput) : (s.outgoing m).group = s.group := by
  obtain ⟨f, b, h | h⟩ := s.outgoing_eq m <;> simp [h]
@[simp] theorem State.outgoing_directory (m : MixInput) : (s.outgoing m).directory = s.directory := by
  obtain ⟨f, b, h | h⟩ := s.outgoing_eq m <;> simp [h]
@[simp] theorem State.outgoing_walker (m : MixInput) : (s.outgoing m).walker = s.walker := by
  obtain ⟨f, b, h | h⟩ := s.outgoing_eq m <;> simp [h]
@[simp] theorem State.outgoing_xps (m : MixInput) : (s.outgoing m).xps = s.xps := by
  obtain ⟨f, b, h | h⟩ := s.outgoing_eq m <;> simp [h]
@[simp] theorem State.outgoing_mixer (m : MixInput) : (s.outgoing m).mixer = s.mixer := by
  obtain ⟨f, b, h | h⟩ := s.outgoing_eq m <;> simp [h]
@[simp] theorem State.outgoing_circuits (m : MixInput) : (s.outgoing m).circuits = s.circuits := by
  obtain ⟨f, b, h | h⟩ := s.outgoing_eq m <;> simp [h]
@[simp] theorem State.outgoing_cueList (m : MixInput) : (s.outgoing m).cueList = s.cueList := by
  obtain ⟨f, b, h | h⟩ := s.outgoing_eq m <;> simp [h]
@[simp] theorem State.outgoing_faultLog (m : MixInput) : (s.outgoing m).faultLog = s.faultLog := by
  obtain ⟨f, b, h | h⟩ := s.outgoing_eq m <;> simp [h]
@[simp] theorem State.outgoing_requests (m : MixInput) : (s.outgoing m).requests = s.requests := by
  obtain ⟨f, b, h | h⟩ := s.outgoing_eq m <;> simp [h]
@[simp] theorem State.outgoing_commands (m : MixInput) :
    (s.outgoing m).management.commands = s.management.commands := by
  obtain ⟨f, b, h | h⟩ := s.outgoing_eq m <;> simp [h]
@[simp] theorem State.outgoing_seq (m : MixInput) :
    (s.outgoing m).management.seq = s.management.seq := by
  obtain ⟨f, b, h | h⟩ := s.outgoing_eq m <;> simp [h]
@[simp] theorem State.outgoing_lock (m : MixInput) :
    (s.outgoing m).management.lock = s.management.lock := by
  obtain ⟨f, b, h | h⟩ := s.outgoing_eq m <;> simp [h]
@[simp] theorem State.outgoing_execution (m : MixInput) :
    (s.outgoing m).management.execution = s.management.execution := by
  obtain ⟨f, b, h | h⟩ := s.outgoing_eq m <;> simp [h]
@[simp] theorem State.outgoing_sync (m : MixInput) :
    (s.outgoing m).trunk.sync = s.trunk.sync := by
  obtain ⟨f, b, h | h⟩ := s.outgoing_eq m <;> simp [h, State.sendFrame]
@[simp] theorem State.outgoing_goodRun (m : MixInput) :
    (s.outgoing m).trunk.goodRun = s.trunk.goodRun := by
  obtain ⟨f, b, h | h⟩ := s.outgoing_eq m <;> simp [h, State.sendFrame]
@[simp] theorem State.outgoing_badRun (m : MixInput) :
    (s.outgoing m).trunk.badRun = s.trunk.badRun := by
  obtain ⟨f, b, h | h⟩ := s.outgoing_eq m <;> simp [h, State.sendFrame]
@[simp] theorem State.outgoing_timing (m : MixInput) :
    (s.outgoing m).trunk.timing = s.trunk.timing := by
  obtain ⟨f, b, h | h⟩ := s.outgoing_eq m <;> simp [h, State.sendFrame]
@[simp] theorem State.outgoing_clock (m : MixInput) :
    (s.outgoing m).trunk.clock = s.trunk.clock := by
  obtain ⟨f, b, h | h⟩ := s.outgoing_eq m <;> simp [h, State.sendFrame]
@[simp] theorem State.outgoing_laneMap (m : MixInput) :
    (s.outgoing m).trunk.laneMap = s.trunk.laneMap := by
  obtain ⟨f, b, h | h⟩ := s.outgoing_eq m <;> simp [h, State.sendFrame]
@[simp] theorem State.outgoing_presented (m : MixInput) :
    (s.outgoing m).trunk.presented = s.trunk.presented := by
  obtain ⟨f, b, h | h⟩ := s.outgoing_eq m <;> simp [h, State.sendFrame]
@[simp] theorem State.outgoing_lastGood (m : MixInput) :
    (s.outgoing m).trunk.lastGood = s.trunk.lastGood := by
  obtain ⟨f, b, h | h⟩ := s.outgoing_eq m <;> simp [h, State.sendFrame]
@[simp] theorem State.outgoing_upstreamLost (m : MixInput) :
    (s.outgoing m).trunk.upstreamLost = s.trunk.upstreamLost := by
  obtain ⟨f, b, h | h⟩ := s.outgoing_eq m <;> simp [h, State.sendFrame]
@[simp] theorem State.outgoing_position (m : MixInput) :
    (s.outgoing m).trunk.position = s.trunk.position := by
  obtain ⟨f, b, h | h⟩ := s.outgoing_eq m <;> simp [h, State.sendFrame]

/-! ### The frame start whole -/

@[simp] theorem State.frameStart_pending : s.frameStart.pending = s.pending := by
  simp [State.frameStart]
@[simp] theorem State.frameStart_directory : s.frameStart.directory = s.directory := by
  simp [State.frameStart]
@[simp] theorem State.frameStart_walker : s.frameStart.walker = s.walker := by
  simp [State.frameStart]
@[simp] theorem State.frameStart_xps : s.frameStart.xps = s.xps := by
  simp [State.frameStart]
@[simp] theorem State.frameStart_cueList : s.frameStart.cueList = s.cueList := by
  simp [State.frameStart]
@[simp] theorem State.frameStart_faultLog : s.frameStart.faultLog = s.faultLog := by
  simp [State.frameStart]
@[simp] theorem State.frameStart_requests : s.frameStart.requests = s.requests := by
  simp [State.frameStart]
@[simp] theorem State.frameStart_commands : s.frameStart.management.commands = s.management.commands := by
  simp [State.frameStart, State.tickClock]
@[simp] theorem State.frameStart_seq : s.frameStart.management.seq = s.management.seq := by
  simp [State.frameStart, State.tickClock]
@[simp] theorem State.frameStart_lock : s.frameStart.management.lock = s.management.lock := by
  simp [State.frameStart, State.tickClock]
@[simp] theorem State.frameStart_sync : s.frameStart.trunk.sync = s.trunk.sync := by
  simp [State.frameStart, State.tickClock]
@[simp] theorem State.frameStart_goodRun : s.frameStart.trunk.goodRun = s.trunk.goodRun := by
  simp [State.frameStart, State.tickClock]
@[simp] theorem State.frameStart_badRun : s.frameStart.trunk.badRun = s.trunk.badRun := by
  simp [State.frameStart, State.tickClock]
@[simp] theorem State.frameStart_timing : s.frameStart.trunk.timing = s.trunk.timing := by
  simp [State.frameStart, State.tickClock]
@[simp] theorem State.frameStart_laneMap : s.frameStart.trunk.laneMap = s.trunk.laneMap := by
  simp [State.frameStart, State.tickClock]
@[simp] theorem State.frameStart_presented : s.frameStart.trunk.presented = s.trunk.presented := by
  simp [State.frameStart, State.tickClock]
@[simp] theorem State.frameStart_lastGood : s.frameStart.trunk.lastGood = s.trunk.lastGood := by
  simp [State.frameStart, State.tickClock]
@[simp] theorem State.frameStart_upstreamLost : s.frameStart.trunk.upstreamLost = s.trunk.upstreamLost := by
  simp [State.frameStart, State.tickClock]
@[simp] theorem State.frameStart_position : s.frameStart.trunk.position = s.trunk.position := by
  simp [State.frameStart, State.tickClock]
@[simp] theorem State.frameStart_clock : s.frameStart.trunk.clock = s.trunk.clock + 1 := by
  simp [State.frameStart, State.tickClock]
@[simp] theorem State.frameStart_group : s.frameStart.group = s.group + 1 := by
  simp [State.frameStart, State.sendDownlinks]
@[simp] theorem State.frameStart_execution :
    s.frameStart.management.execution = s.management.execution.tick (s.trunk.clock + 1) := by
  simp [State.frameStart, State.tickClock]
@[simp] theorem State.frameStart_circuits :
    s.frameStart.circuits = each s.circuits fun _ c => c.tick (s.trunk.clock + 1) := by
  simp [State.frameStart, State.tickClock]

/-- A frame start that the timing source gives (R147). -/
theorem exec_frameStart_of_due {s : State} (h : s.trunk.timing = .localClock ∨ s.trunk.period ≠ none) :
    exec .frameStart s = .next s.frameStart := by
  have hd : s.trunk.frameDue = true := by
    unfold TrunkPort.frameDue
    rcases h with h | h
    · simp [h]
    · cases hp : s.trunk.period <;> simp_all
  simp [exec, execFrameStart, hd]

end Sys2Proof.Machine
end

