-- ==== Sys2Proof/Laws/PerInstr.lean ====
section
/-!
SUPPORT. Statements about every command as syntax, one lemma per constructor. `Forms`: a command is well
formed exactly when the bytes it carries have the length of their line's frame (12.1, 12.2) and the errors
it brings to table RAM name no place twice.
-/

namespace Sys2Proof.Laws.Forms

/-- The bytes of a line that a command carries, with the length of that line's frame. -/
def carried : Instr → Option (List Byte × Nat)
  | .trunkArrival bytes => some (bytes, 118)
  | .linkReport _ (.frame bytes) => some (bytes, 6)
  | _ => none

/-- The errors that a command brings to table RAM. -/
def upsets : Instr → Upsets
  | .walkStart u | .readRecord u | .tablePortGrant u => u
  | _ => []

/-- When a command is well formed. -/
def Statement (i : Instr) : Prop :=
  i.wellFormed = true ↔ (∀ x, carried i = some x → x.1.length = x.2) ∧ ((upsets i).map Prod.fst).Nodup

/-- A command that carries no bytes and brings no errors is well formed. -/
theorem plain {i : Instr} (h : i.wellFormed = true) (hc : carried i = none) (hu : upsets i = []) :
    Statement i :=
  ⟨fun _ => ⟨by simp [hc], by simp [hu]⟩, fun _ => h⟩

theorem pinReset (straps : Fin 8) : Statement (.pinReset straps) :=
  plain rfl rfl rfl

theorem ramInitialisationEnd : Statement .ramInitialisationEnd := plain rfl rfl rfl

theorem frameStart : Statement .frameStart := plain rfl rfl rfl

theorem trunkArrival (bytes : List Byte) : Statement (.trunkArrival bytes) := by
  simp [Statement, Instr.wellFormed, carried, upsets, trunkFrameLength]

theorem missingFrame : Statement .missingFrame := plain rfl rfl rfl

theorem linkReport (p : Port) (report : UplinkReport) : Statement (.linkReport p report) := by
  cases report <;>
    simp [Statement, Instr.wellFormed, UplinkReport.wellFormed, carried, upsets, uplinkFrameLength]

theorem statePost (p : Port) : Statement (.statePost p) :=
  plain rfl rfl rfl

theorem keyEventTake : Statement .keyEventTake := plain rfl rfl rfl

theorem walkStart (upsets : Upsets) : Statement (.walkStart upsets) := by
  simp [Statement, Instr.wellFormed, Upsets.wellFormed, carried, Forms.upsets]

theorem walkEnd : Statement .walkEnd := plain rfl rfl rfl

theorem busyLampRequest (p : Port) (k : Key) : Statement (.busyLampRequest p k) :=
  plain rfl rfl rfl

theorem crosspointInstall : Statement .crosspointInstall := plain rfl rfl rfl

theorem removeKey (p : Port) (k : Key) : Statement (.removeKey p k) :=
  plain rfl rfl rfl

theorem removePortKeys (p : Port) : Statement (.removePortKeys p) :=
  plain rfl rfl rfl

theorem removeCircuit (c : CircuitIx) : Statement (.removeCircuit c) :=
  plain rfl rfl rfl

theorem removeKeysAndCues : Statement .removeKeysAndCues := plain rfl rfl rfl

theorem portRowReset (p : Port) : Statement (.portRowReset p) :=
  plain rfl rfl rfl

theorem lostMarkSet (p : Port) : Statement (.lostMarkSet p) :=
  plain rfl rfl rfl

theorem lostMarkClear (p : Port) : Statement (.lostMarkClear p) :=
  plain rfl rfl rfl

theorem standbyRequest (p : Port) (c : CircuitIx) : Statement (.standbyRequest p c) :=
  plain rfl rfl rfl

theorem goRequest (p : Port) (c : CircuitIx) : Statement (.goRequest p c) :=
  plain rfl rfl rfl

theorem cancelRequest (p : Port) (c : CircuitIx) : Statement (.cancelRequest p c) :=
  plain rfl rfl rfl

theorem answer (p : Port) (l : CrewLamp) : Statement (.answer p l) :=
  plain rfl rfl rfl

theorem standbyTimerExpiry (c : CircuitIx) : Statement (.standbyTimerExpiry c) :=
  plain rfl rfl rfl

theorem goHoldExpiry (c : CircuitIx) : Statement (.goHoldExpiry c) :=
  plain rfl rfl rfl

theorem goNext (p : Port) : Statement (.goNext p) :=
  plain rfl rfl rfl

theorem standbyNext (p : Port) : Statement (.standbyNext p) :=
  plain rfl rfl rfl

theorem back (p : Port) : Statement (.back p) :=
  plain rfl rfl rfl

theorem skip (p : Port) : Statement (.skip p) :=
  plain rfl rfl rfl

theorem unknownCommand : Statement .unknownCommand := plain rfl rfl rfl

theorem identify : Statement .identify := plain rfl rfl rfl

theorem softReset : Statement .softReset := plain rfl rfl rfl

theorem walkerReset : Statement .walkerReset := plain rfl rfl rfl

theorem circuitAbort : Statement .circuitAbort := plain rfl rfl rfl

theorem portResync (p : Port) : Statement (.portResync p) :=
  plain rfl rfl rfl

theorem portSetup : Statement .portSetup := plain rfl rfl rfl

theorem portStatus : Statement .portStatus := plain rfl rfl rfl

theorem laneMap : Statement .laneMap := plain rfl rfl rfl

theorem slotEnable : Statement .slotEnable := plain rfl rfl rfl

theorem slotRetire : Statement .slotRetire := plain rfl rfl rfl

theorem installCrosspoint : Statement .installCrosspoint := plain rfl rfl rfl

theorem removeCrosspoint : Statement .removeCrosspoint := plain rfl rfl rfl

theorem setGain : Statement .setGain := plain rfl rfl rfl

theorem readSlot : Statement .readSlot := plain rfl rfl rfl

theorem directorySetup : Statement .directorySetup := plain rfl rfl rfl

theorem writeRecords : Statement .writeRecords := plain rfl rfl rfl

theorem readRecord (upsets : Upsets) : Statement (.readRecord upsets) := by
  simp [Statement, Instr.wellFormed, Upsets.wellFormed, carried, Forms.upsets]

theorem selectScene : Statement .selectScene := plain rfl rfl rfl

theorem tablePortGrant (upsets : Upsets) : Statement (.tablePortGrant upsets) := by
  simp [Statement, Instr.wellFormed, Upsets.wellFormed, carried, Forms.upsets]

theorem recordWrite : Statement .recordWrite := plain rfl rfl rfl

theorem loadTimerExpiry : Statement .loadTimerExpiry := plain rfl rfl rfl

theorem retryKey : Statement .retryKey := plain rfl rfl rfl

theorem circuitSetup : Statement .circuitSetup := plain rfl rfl rfl

theorem readCircuit : Statement .readCircuit := plain rfl rfl rfl

theorem cueStandby : Statement .cueStandby := plain rfl rfl rfl

theorem cueGo : Statement .cueGo := plain rfl rfl rfl

theorem cueCancel : Statement .cueCancel := plain rfl rfl rfl

theorem cueNext : Statement .cueNext := plain rfl rfl rfl

theorem cueListWrite : Statement .cueListWrite := plain rfl rfl rfl

theorem cueListTruncate : Statement .cueListTruncate := plain rfl rfl rfl

theorem cueCursor : Statement .cueCursor := plain rfl rfl rfl

theorem readCueList : Statement .readCueList := plain rfl rfl rfl

theorem readLastCue : Statement .readLastCue := plain rfl rfl rfl

theorem readFaults : Statement .readFaults := plain rfl rfl rfl

theorem clearFaults : Statement .clearFaults := plain rfl rfl rfl

theorem lockShow : Statement .lockShow := plain rfl rfl rfl

theorem unlockShow : Statement .unlockShow := plain rfl rfl rfl

theorem freezeShow : Statement .freezeShow := plain rfl rfl rfl

theorem faultReport (kind : FaultKind) (loc : Location) : Statement (.faultReport kind loc) :=
  plain rfl rfl rfl

end Sys2Proof.Laws.Forms
end

