-- ==== Sys2Proof/Laws/Station.lean ====
section
/-!
SUPPORT. The station ports' operations, each said once.
-/

namespace Sys2Proof.Machine

@[simp] theorem State.setPort_setPort (s : State) (p : Port) (x y : StationPort) :
    (s.setPort p x).setPort p y = s.setPort p y := by
  simp [State.setPort]

@[simp] theorem State.setRequests_setPort (s : State) (rs : List Request) (p : Port) (x : StationPort) :
    (s.setRequests rs).setPort p x = (s.setPort p x).setRequests rs := rfl

@[simp] theorem State.setPort_self (s : State) (p : Port) : s.setPort p s.ports[p.val] = s := by
  simp [State.setPort]

/-- Putting a sample in (R133): a FIFO of 8 drops its oldest sample, with a slip. -/
theorem StationPort.push_eq (x : StationPort) (v : Sample) : x.push v = { x with
    fifo := if x.fifo.length < 8 then x.fifo ++ [v] else x.fifo.tail ++ [v]
    slips := if x.fifo.length < 8 then x.slips else min (x.slips + 1) 65535 } := by
  unfold StationPort.push
  by_cases h : x.fifo.length < 8
  · simp [h]
  · simp [h, StationPort.slip]

/-- Taking a sample (R133): an UP port gives its oldest, or its last again with a slip. -/
theorem StationPort.takeSample_cases (x : StationPort) :
    (x.link ≠ .up ∧ x.takeSample = x)
    ∨ (∃ v rest, x.link = .up ∧ x.fifo = v :: rest ∧
        x.takeSample = { x with fifo := rest, lastHanded := v })
    ∨ (x.link = .up ∧ x.fifo = [] ∧ x.takeSample = x.slip) := by
  unfold StationPort.takeSample
  by_cases hu : x.link = .up
  · cases hf : x.fifo with
    | nil => exact .inr (.inr ⟨hu, rfl, by simp [hu]⟩)
    | cons v rest => exact .inr (.inl ⟨v, rest, hu, rfl, by simp [hu]⟩)
  · exact .inl ⟨hu, by simp [hu]⟩

/-- The drop of a port: its record, the results of its desk requests that are wanted no more, the three
requests handed over (R130), and its walk that is to be suppressed (R131). -/
theorem State.dropPort_eq (p : Port) (s : State) :
    s.dropPort p = ((s.setPort p s.ports[p.val].dropped).setRequests
      (s.requests.map (Request.discardFor p)
        ++ [.removePortKeys p, .lostMark p true, .fault .portLost (.port p)])).suppress (·.ofPort p) := by
  simp [State.dropPort, State.hand, State.report]

/-- A result reaches a desk (R137): its reply joins a buffer with room of a port that is UP. -/
theorem State.deskReply_cases (s : State) (p : Port) (seq : Byte) (status : Status) :
    s.deskReply p seq status = s
    ∨ (s.ports[p.val].link = .up ∧ s.ports[p.val].replies.length < 2
        ∧ s.deskReply p seq status = s.setPort p { s.ports[p.val] with
          replies := s.ports[p.val].replies ++ [withSumCheck [0x80, seq, byte status.code]] }) := by
  unfold State.deskReply
  by_cases h : s.ports[p.val].link = .up ∧ s.ports[p.val].replies.length < 2
  · exact .inr ⟨h.1, h.2, if_pos h⟩
  · exact .inl (if_neg h)

/-! ### Key edges (R134, R59) -/

/-- The event that an edge of key `k` is offered as. -/
def edgeEvent (p : Port) (after : BitVec 7) (clock : Stamp) (k : Key) : KeyEvent :=
  if after.getLsbD k.val then .press p k clock else .release p k clock

/-- The events that the edges of the keys `ks` are offered as. -/
def edgeEvents (p : Port) (before after : BitVec 7) (clock : Stamp) (ks : List Key) : List KeyEvent :=
  (ks.filter fun k => before.getLsbD k.val != after.getLsbD k.val).map (edgeEvent p after clock)

/-- One edge: nothing while the flag is set or the key stands still; otherwise the event is admitted below
28 queued events, and sets the flag with KEY_OVERRUN reported at 28. -/
theorem State.talkEdge_cases (s : State) (p : Port) (before after : BitVec 7) (k : Key) :
    ((before.getLsbD k.val = after.getLsbD k.val ∨ s.ports[p.val].resync = true)
      ∧ s.talkEdge p before after k = s)
    ∨ (before.getLsbD k.val ≠ after.getLsbD k.val ∧ s.ports[p.val].resync = false
      ∧ s.walker.queue.length < 28
      ∧ s.talkEdge p before after k = s.enqueue (edgeEvent p after s.trunk.clock k))
    ∨ (before.getLsbD k.val ≠ after.getLsbD k.val ∧ s.ports[p.val].resync = false
      ∧ 28 ≤ s.walker.queue.length
      ∧ s.talkEdge p before after k
        = (s.setPort p { s.ports[p.val] with resync := true }).report .keyOverrun (.port p)) := by
  unfold State.talkEdge State.offerKey
  by_cases h : before.getLsbD k.val = after.getLsbD k.val
  · exact .inl ⟨.inl h, by simp [h]⟩
  · cases hr : s.ports[p.val].resync with
    | true => exact .inl ⟨.inr rfl, by simp⟩
    | false =>
      by_cases hq : s.walker.queue.length < 28
      · exact .inr (.inl ⟨h, rfl, hq, by simp [h, hq, edgeEvent]⟩)
      · exact .inr (.inr ⟨h, rfl, by omega, by simp [h, hq]⟩)

/-- The edges of several keys in order: the events offered are admitted as far as there is room below 28;
the first that is not admitted sets the flag and reports KEY_OVERRUN, and no later one is offered. -/
theorem State.foldl_talkEdge (p : Port) (before after : BitVec 7) (ks : List Key) (s : State) :
    ks.foldl (fun s k => s.talkEdge p before after k) s =
      let offered := if s.ports[p.val].resync then []
        else edgeEvents p before after s.trunk.clock ks
      let room := 28 - s.walker.queue.length
      let overrun := decide (room < offered.length)
      ((s.setPort p { s.ports[p.val] with resync := s.ports[p.val].resync || overrun }).setWalker
        { s.walker with queue := s.walker.queue ++ offered.take room }).setRequests
          (s.requests ++ if overrun then [.fault .keyOverrun (.port p)] else []) := by
  induction ks generalizing s with
  | nil =>
    simp only [List.foldl_nil, edgeEvents, List.filter_nil, List.map_nil, ite_self, List.length_nil,
      Nat.not_lt_zero, decide_false, Bool.or_false, List.take_nil, List.append_nil, Bool.false_eq_true,
      if_false]
    exact (State.setPort_self s p).symm
  | cons k rest ih =>
    rw [List.foldl_cons, ih]
    rcases s.talkEdge_cases p before after k with ⟨h, e⟩ | ⟨h, hr, hq, e⟩ | ⟨h, hr, hq, e⟩
    · rw [e]
      cases hr : s.ports[p.val].resync with
      | true => simp
      | false =>
        have hk : before.getLsbD k.val = after.getLsbD k.val := by simpa [hr] using h
        simp [edgeEvents, hk]
    · rw [e]
      have hroom : 28 - s.walker.queue.length = (28 - (s.walker.queue.length + 1)) + 1 := by omega
      simp only [State.enqueue_ports, hr, State.enqueue_trunk, State.enqueue_walker,
        State.enqueue_requests, List.length_append, List.length_singleton]
      rw [hroom]
      simp [edgeEvents, h, State.enqueue]
      rfl
    · rw [e]
      have hroom : 28 - s.walker.queue.length = 0 := by omega
      simp [edgeEvents, h, hr, hroom, State.report, State.hand]
      rfl

end Sys2Proof.Machine
end

