-- ==== Sys2Proof/Laws/TableRam.lean ====
section
/-!
SUPPORT. Table RAM: a read after a write, and that every operation keeps the canonical form.
-/

namespace Sys2Proof.Machine

/-! ### The canonical form -/

theorem TableRam.wf_nil : TableRam.wf [] := ⟨List.Pairwise.nil, fun _ h => nomatch h⟩

/-- A list whose places all lie above `i` reads its initialised value at `i`. -/
theorem TableRam.read_below {m : TableRam} {i : Nat} (h : ∀ e ∈ m, i < e.1) :
    m.read i = RecordPlace.initial := by
  induction m with
  | nil => rfl
  | cons e rest ih =>
    obtain ⟨j, x⟩ := e
    have hj : i < j := h (j, x) (by simp)
    rw [TableRam.read, if_neg (by omega)]
    exact ih fun e he => h e (List.mem_cons_of_mem _ he)

/-- What a write can put into the list. -/
theorem TableRam.mem_write {m : TableRam} {i : Nat} {x : RecordPlace} {e : Nat × RecordPlace}
    (h : e ∈ m.write i x) : e ∈ m ∨ (e = (i, x) ∧ x ≠ RecordPlace.initial) := by
  induction m with
  | nil =>
    unfold TableRam.write at h
    split at h
    · simp at h
    · exact .inr ⟨by simpa using h, ‹_›⟩
  | cons f rest ih =>
    obtain ⟨j, y⟩ := f
    unfold TableRam.write at h
    split at h
    · split at h
      · exact .inl h
      · rcases List.mem_cons.1 h with h | h
        · exact .inr ⟨h, ‹_›⟩
        · exact .inl h
    · split at h
      · split at h
        · exact .inl (List.mem_cons_of_mem _ h)
        · rcases List.mem_cons.1 h with h | h
          · exact .inr ⟨h, ‹_›⟩
          · exact .inl (List.mem_cons_of_mem _ h)
      · rcases List.mem_cons.1 h with h | h
        · exact .inl (by simp [h])
        · rcases ih h with h | h
          · exact .inl (List.mem_cons_of_mem _ h)
          · exact .inr h

/-- A write to an existing place keeps the canonical form. -/
theorem TableRam.write_wf {m : TableRam} (hm : m.wf) {i : Nat} (hi : i < 1024) (x : RecordPlace) :
    (m.write i x).wf := by
  obtain ⟨hs, hv⟩ := hm
  refine ⟨?_, fun e he => ?_⟩
  · induction m with
    | nil =>
      unfold TableRam.write
      split <;> simp
    | cons f rest ih =>
      obtain ⟨j, y⟩ := f
      obtain ⟨hj, hrest⟩ := List.pairwise_cons.1 hs
      unfold TableRam.write
      split
      · split
        · exact hs
        · refine List.pairwise_cons.2 ⟨fun e he => ?_, hs⟩
          rcases List.mem_cons.1 he with he | he
          · subst he; assumption
          · exact Nat.lt_trans ‹i < j› (hj e he)
      · split
        · subst ‹i = j›
          split
          · exact hrest
          · exact List.pairwise_cons.2 ⟨hj, hrest⟩
        · refine List.pairwise_cons.2 ⟨fun e he => ?_, ih hrest fun e he => hv e (by simp [he])⟩
          rcases TableRam.mem_write he with he | ⟨he, -⟩
          · exact hj e he
          · subst he; simp only; omega
  · rcases TableRam.mem_write he with he | ⟨he, hx⟩
    · exact hv e he
    · subst he; exact ⟨hi, hx⟩

theorem TableRam.upset_wf {m : TableRam} (hm : m.wf) (u : Place × Upset) : (m.upset u).wf :=
  TableRam.write_wf hm u.1.isLt _

theorem TableRam.upsetAll_wf {m : TableRam} (hm : m.wf) (us : Upsets) : (m.upsetAll us).wf := by
  unfold TableRam.upsetAll
  induction us generalizing m with
  | nil => exact hm
  | cons u rest ih => exact ih (TableRam.upset_wf hm u)

theorem TableRam.scrub_wf {m : TableRam} (hm : m.wf) (i : Place) : (m.scrub i).wf :=
  TableRam.write_wf hm i.isLt _

theorem TableRam.scrubs_wf {m : TableRam} (hm : m.wf) (is : List Place) :
    (is.foldl TableRam.scrub m).wf := by
  induction is generalizing m with
  | nil => exact hm
  | cons i rest ih => exact ih (TableRam.scrub_wf hm i)

/-- What a read of a place can do to table RAM (R50, R51): nothing, or set the poison mark. -/
theorem TableRam.fetch_cases (m : TableRam) (i : Place) :
    (m.fetch i).2.1 = m
      ∨ (m.fetch i).2.1 = m.write i.val { m.read i.val with poisoned := true } := by
  unfold TableRam.fetch
  simp only
  split
  · exact .inl rfl
  · split
    · exact .inl rfl
    · exact .inl rfl
    · exact .inr rfl

theorem TableRam.fetch_wf {m : TableRam} (hm : m.wf) (i : Place) : (m.fetch i).2.1.wf := by
  rcases m.fetch_cases i with h | h <;> rw [h]
  · exact hm
  · exact TableRam.write_wf hm i.isLt _

theorem readChain_wf (tag : Tag) (region : Region) (scene : Scene) (fuel : Nat) {m : TableRam}
    (hm : m.wf) (i : Place) (a : Reading) : (readChain tag region scene fuel m i a).2.1.wf := by
  induction fuel generalizing m i a with
  | zero =>
    unfold readChain
    simp only
    repeat' split
    all_goals exact TableRam.fetch_wf hm i
  | succ fuel ih =>
    unfold readChain
    simp only
    repeat' split
    all_goals first
      | exact TableRam.fetch_wf hm i
      | exact ih (TableRam.fetch_wf hm i) _ _

theorem readWalk_wf (tag : Tag) (region : Region) (scene : Scene) {m : TableRam} (hm : m.wf) :
    (readWalk tag region scene m).2.1.wf := readChain_wf _ _ _ _ hm _ _

/-! ### Reads after writes -/

/-- A read after a write: the written place reads what was written, every other place as before. -/
theorem TableRam.read_write {m : TableRam} (hm : m.wf) (i : Nat) (x : RecordPlace) (j : Nat) :
    (m.write i x).read j = if i = j then x else m.read j := by
  obtain ⟨hs, -⟩ := hm
  induction m with
  | nil =>
    unfold TableRam.write
    by_cases h : i = j
    · by_cases hx : x = RecordPlace.initial
      · simp [h, hx, TableRam.read]
      · simp [h, hx, TableRam.read]
    · have h' : ¬ j = i := fun e => h e.symm
      by_cases hx : x = RecordPlace.initial
      · simp [h, hx, TableRam.read]
      · simp [h, h', hx, TableRam.read]
  | cons f rest ih =>
    obtain ⟨k, y⟩ := f
    obtain ⟨hk, hrest⟩ := List.pairwise_cons.1 hs
    have below : ∀ n, n ≤ k → TableRam.read rest n = RecordPlace.initial := fun n hn =>
      TableRam.read_below fun e he => Nat.lt_of_le_of_lt hn (hk e he)
    unfold TableRam.write
    split
    · rename_i hik
      split
      · rename_i hx
        by_cases h : i = j
        · subst h
          rw [if_pos rfl, TableRam.read, if_neg (by omega), below i (by omega), hx]
        · rw [if_neg h]
      · by_cases h : i = j
        · subst h; simp [TableRam.read]
        · rw [if_neg h, TableRam.read, if_neg (fun e => h e.symm)]
    · split
      · rename_i hik
        subst hik
        split
        · rename_i hx
          by_cases h : i = j
          · subst h
            rw [if_pos rfl, below i (Nat.le_refl i), hx]
          · rw [if_neg h, TableRam.read, if_neg (fun e => h e.symm)]
        · by_cases h : i = j
          · subst h; simp [TableRam.read]
          · simp only [TableRam.read]
            rw [if_neg h, if_neg (fun e => h e.symm), if_neg (fun e => h e.symm)]
      · rename_i hlt hne
        by_cases h : j = k
        · subst h
          simp [TableRam.read, hne]
        · simp only [TableRam.read]
          rw [if_neg h, if_neg h]
          exact ih hrest

theorem TableRam.read_write_same {m : TableRam} (hm : m.wf) (i : Nat) (x : RecordPlace) :
    (m.write i x).read i = x := by rw [TableRam.read_write hm, if_pos rfl]

theorem TableRam.read_write_other {m : TableRam} (hm : m.wf) {i j : Nat} (h : i ≠ j)
    (x : RecordPlace) : (m.write i x).read j = m.read j := by rw [TableRam.read_write hm, if_neg h]

/-- Two tables in canonical form that read alike are equal: equal memories are equal data. -/
theorem TableRam.ext_of_wf {m n : TableRam} (hm : m.wf) (hn : n.wf) (h : ∀ i, m.read i = n.read i) :
    m = n := by
  induction m generalizing n with
  | nil =>
    cases n with
    | nil => rfl
    | cons e rest =>
      have := h e.1
      simp only [TableRam.read] at this
      rw [if_pos trivial] at this
      exact absurd this.symm (hn.2 e (by simp)).2
  | cons e rest ih =>
    cases n with
    | nil =>
      have := h e.1
      simp only [TableRam.read] at this
      rw [if_pos trivial] at this
      exact absurd this (hm.2 e (by simp)).2
    | cons f rest' =>
      obtain ⟨i, x⟩ := e
      obtain ⟨j, y⟩ := f
      obtain ⟨hi, hrest⟩ := List.pairwise_cons.1 hm.1
      obtain ⟨hj, hrest'⟩ := List.pairwise_cons.1 hn.1
      have low : ∀ k, k ≤ i → TableRam.read rest k = RecordPlace.initial := fun k hk =>
        TableRam.read_below fun e he => Nat.lt_of_le_of_lt hk (hi e he)
      have low' : ∀ k, k ≤ j → TableRam.read rest' k = RecordPlace.initial := fun k hk =>
        TableRam.read_below fun e he => Nat.lt_of_le_of_lt hk (hj e he)
      have hij : i = j := by
        rcases Nat.lt_trichotomy i j with hlt | heq | hlt
        · have := h i
          simp only [TableRam.read] at this
          rw [if_pos trivial, if_neg (by omega), low' i (by omega)] at this
          exact absurd this (hm.2 (i, x) (by simp)).2
        · exact heq
        · have := h j
          simp only [TableRam.read] at this
          rw [if_pos trivial, if_neg (by omega), low j (by omega)] at this
          exact absurd this.symm (hn.2 (j, y) (by simp)).2
      subst hij
      have hxy : x = y := by
        have := h i
        simpa [TableRam.read] using this
      subst hxy
      have : rest = rest' := by
        refine ih ⟨hrest, fun e he => hm.2 e (by simp [he])⟩
          ⟨hrest', fun e he => hn.2 e (by simp [he])⟩ fun k => ?_
        have := h k
        simp only [TableRam.read] at this
        by_cases hk : k = i
        · subst hk; rw [low k (Nat.le_refl k), low' k (Nat.le_refl k)]
        · rwa [if_neg hk, if_neg hk] at this
      rw [this]

end Sys2Proof.Machine
end

