-- ==== Sys2Proof/Laws/Walker.lean ====
section
/-!
SUPPORT. What the shared operations of the walker do: removing a key, and making good the CALL hits that stand
before an install. And how the answers and lost marks of one port keep their order.
-/

namespace Sys2Proof.Machine

/-! ### Removing a key (R66) -/

/-- Each appearance of a port in the call list lowers its count by one. -/
theorem lowerCalls_get (v : Vector Nat 16) (ports : List Port) (q : Port) :
    (lowerCalls v ports)[q] = v[q] - ports.count q := by
  induction ports generalizing v with
  | nil => simp [lowerCalls]
  | cons p ports ih =>
    rw [show lowerCalls v (p :: ports) = lowerCalls (adjust v p fun n => n - 1) ports from rfl, ih,
      List.count_cons]
    simp only [Fin.getElem_fin, adjust_get]
    by_cases h : p = q
    · subst h
      simp
      omega
    · have h' : p.val ≠ q.val := fun e => h (Fin.ext e)
      simp [h, h']

/-- Two changes of a key entry are the last of them. -/
@[simp] theorem Walker.setEntry_setEntry (w : Walker) (p : Port) (k : Key) (d e : KeyEntry) :
    (w.setEntry p k d).setEntry p k e = w.setEntry p k e := by
  simp [Walker.setEntry]

@[simp] theorem Walker.setEntry_self (w : Walker) (p : Port) (k : Key) : w.setEntry p k (w.entry p k) = w := by
  simp [Walker.setEntry, Walker.entry]

/-- The key leaves every slot, the counts of the call list are lowered, and the key is OFF. -/
theorem State.removeKey_eq (s : State) (p : Port) (k : Key) (swallow : Bool) :
    s.removeKey p k swallow = ((s.setXps (s.xps.remove fun o => o == .key p k)).setWalker { s.walker with
        calls := lowerCalls s.walker.calls (s.entry p k).calls }).setEntry p k { s.entry p k with
          state := .off, lamp := .off, calls := []
          swallow := (s.entry p k).swallow || swallow } :=
  rfl

/-- The key lets go at a release in mode MOMENTARY, and in mode AUTO from 6,400 frames after its press. -/
theorem KeyEntry.letsGo_iff (e : KeyEntry) (stamp : Stamp) :
    e.letsGo stamp = true ↔ e.mode = .momentary ∨ e.mode = .auto ∧ 6400 ≤ (stamp - e.stamp).toNat := by
  unfold KeyEntry.letsGo
  cases e.mode with
  | momentary => simp
  | latching => simp
  | auto =>
    refine ⟨fun h => .inr ⟨rfl, of_decide_eq_true h⟩, ?_⟩
    rintro (h | ⟨_, h⟩)
    · cases h
    · exact decide_eq_true h

/-! ### CALL hits (R72, R78) -/

/-- Each CALL hit raises the count of its port by one and joins the key's call list; the hits left begin with an
install, and a CALL hit is a success. -/
theorem State.settleCalls_key (p : Port) (k : Key) (calls left : List Hit) (ports : List Port) (ok : Bool)
    (s : State)
    (hc : (calls.map fun x => (x.content.cls.toNat, Endpoint.decode x.content.dest))
      = ports.map (fun q => (3, some (.port q))))
    (hl : ∀ x, left.head? = some x → x.content.cls.toNat ≠ 3) :
    ∃ counts : Vector Nat 16, (∀ q : Port, counts[q] = s.walker.calls[q] + ports.count q) ∧
      State.settleCalls (.key p k) (calls ++ left) ok s =
        ((s.setWalker { s.walker with calls := counts }).setEntry p k { s.entry p k with
          calls := (s.entry p k).calls ++ ports }, left, ok || !ports.isEmpty) := by
  induction calls generalizing ports s ok with
  | nil =>
    obtain rfl : ports = [] := by simpa using hc.symm
    refine ⟨s.walker.calls, fun q => by simp, ?_⟩
    have same : (s.setWalker { s.walker with calls := s.walker.calls }).setEntry p k { s.entry p k with
        calls := (s.entry p k).calls ++ [] } = s := by
      rw [List.append_nil]
      exact congrArg s.setWalker (Walker.setEntry_self s.walker p k)
    rw [same]
    cases left with
    | nil => simp [State.settleCalls]
    | cons x l => simp [State.settleCalls, Hit.isCall, callCode, hl x rfl]
  | cons c calls ih =>
    cases ports with
    | nil => simp at hc
    | cons q ports =>
      simp only [List.map_cons, List.cons.injEq, Prod.mk.injEq] at hc
      have raised : s.raiseCall p k c = (s.setWalker { s.walker with
          calls := adjust s.walker.calls q (· + 1) }).setEntry p k { s.entry p k with
            calls := (s.entry p k).calls ++ [q] } := by
        unfold State.raiseCall
        rw [hc.1.2]
      obtain ⟨counts, h1, h2⟩ := ih ports true (s.raiseCall p k c) hc.2
      refine ⟨counts, fun r => ?_, ?_⟩
      · rw [h1, raised, List.count_cons]
        show (adjust s.walker.calls q (· + 1))[r] + _ = _
        simp only [Fin.getElem_fin, adjust_get]
        by_cases e : q = r
        · subst e
          simp
          omega
        · have e' : q.val ≠ r.val := fun h => e (Fin.ext h)
          simp [e, e']
      · simp only [List.cons_append, State.settleCalls, Hit.isCall, callCode, hc.1.1, beq_self_eq_true,
          if_true, h2]
        rw [raised]
        generalize adjust s.walker.calls q (· + 1) = raisedCalls
        refine Prod.ext ?_ (by simp)
        have entry (w : Walker) (e : KeyEntry) : ((s.setWalker w).setEntry p k e).entry p k = e :=
          Walker.setEntry_entry_same w p k e
        simp only [entry, List.append_assoc, List.singleton_append]
        exact congrArg s.setWalker (Walker.setEntry_setEntry { s.walker with calls := counts } p k _ _)

/-! ### Answers and lost marks of one port (R84, R106) -/

/-- The oldest lost mark of a port, found where it stands. -/
theorem firstLostMark_of {s : State} {p : Port} {lost : Bool} {before after : List Request}
    (h : s.requests = before ++ .lostMark p lost :: after) (hb : ∀ b, Request.lostMark p b ∉ before) :
    s.firstLostMark p = some lost := by
  unfold State.firstLostMark
  rw [h]
  clear h
  induction before with
  | nil => simp
  | cons r rest ih =>
    have hr : ∀ b, Request.lostMark p b ∉ rest := fun b m => hb b (List.mem_cons_of_mem _ m)
    have ne : ∀ b, r ≠ .lostMark p b := fun b e => hb b (e ▸ List.mem_cons_self)
    cases r with
    | lostMark q b =>
      have : q ≠ p := fun e => ne b (by rw [e])
      simpa [this] using ih hr
    | _ => simpa using ih hr

/-- The answers that stand before it are dropped; nothing else is. -/
theorem dropAnswers_of {p : Port} {lost : Bool} {before after : List Request}
    (hb : ∀ b, Request.lostMark p b ∉ before) :
    dropAnswers p (before ++ .lostMark p lost :: after)
      = before.filter (fun r => !r.answers p) ++ .lostMark p lost :: after := by
  induction before with
  | nil => simp [dropAnswers]
  | cons r rest ih =>
    have hr : ∀ b, Request.lostMark p b ∉ rest := fun b m => hb b (List.mem_cons_of_mem _ m)
    have ne : ∀ b, r ≠ .lostMark p b := fun b e => hb b (e ▸ List.mem_cons_self)
    cases r with
    | lostMark q b =>
      have : q ≠ p := fun e => ne b (by rw [e])
      simp [dropAnswers, this, ih hr, Request.answers]
    | answer q l =>
      by_cases e : q = p <;> simp [dropAnswers, e, ih hr, Request.answers]
    | _ => simp [dropAnswers, ih hr, Request.answers]

/-- An answer is due exactly where no lost mark of its port stands before the first of it. -/
theorem answerDue_of {p : Port} {l : CrewLamp} {before after : List Request}
    (hb : Request.answer p l ∉ before) :
    answerDue p l (before ++ .answer p l :: after) = true ↔ ∀ b, Request.lostMark p b ∉ before := by
  induction before with
  | nil => simp [answerDue]
  | cons r rest ih =>
    have hr : Request.answer p l ∉ rest := fun m => hb (List.mem_cons_of_mem _ m)
    have ne : r ≠ .answer p l := fun e => hb (e ▸ List.mem_cons_self)
    cases r with
    | lostMark q b =>
      by_cases e : q = p
      · subst e
        simp only [List.cons_append, answerDue, bne_self_eq_false, Bool.false_and, Bool.false_eq_true,
          false_iff]
        exact fun h => h b List.mem_cons_self
      · have e' : ∀ b', Request.lostMark p b' ≠ .lostMark q b := fun b' h => e (by injection h with h _; exact h.symm)
        simp [answerDue, e, ih hr, e']
    | answer q m => simp [answerDue, ne, ih hr]
    | _ => simp [answerDue, ih hr]

end Sys2Proof.Machine
end

