-- ==== Sys2Proof/Tests/Slice0.lean ====
section
/-!
SUPPORT. Tests of the model: the well-formedness checks, the worked examples of the spec (each names its
section), and for every statement with hypotheses a named witness that meets them, clause by clause.
-/

namespace Sys2Proof.Tests

set_option Elab.async false

open Sys2Proof.Machine

/-! ### States to test on -/

/-- The machine after RAM initialisation. -/
def ready : State := State.reset.setDirectory { State.reset.directory with initialising := false }

/-- A command with its code and the bytes of its parameters. -/
abbrev the (code : Byte) (ps : List Byte) : Command := ⟨9, code, ps⟩

/-- A state with one command in its queue and the show lock as given. -/
def given (code : Byte) (ps : List Byte) (l : LockState) (s : State) : State :=
  s.setManagement { ready.management with commands := [the code ps], lock := l }

/-- That command may begin in the lock states that the statement about it names. -/
theorem runs (code : Byte) (ps : List Byte) (l : LockState) (s : State) (locks : List LockState)
    (hd : s.directory.initialising = false) (h : l ∈ locks) :
    (given code ps l s).canRun code.toNat locks (the code ps) [] :=
  ⟨rfl, rfl, hd, rfl, Nat.succ_pos 7, h⟩

/-- A beltpack port that is UP. -/
def upPort : StationPort := { StationPort.initial with kind := .beltpack, link := .up, goodRun := 16 }

/-- The machine with port `p` as given. -/
def portAt (p : Port) (x : StationPort) : State := ready.setPort p x

/-- The machine with circuit `c` as given. -/
def circuitAt (c : CircuitIx) (x : Circuit) : State := ready.setCircuit c x

/-- The machine with requests in transit. -/
def asked (rs : List Request) : State := ready.setRequests rs

/-- The trunk port LOCKED under TRUNK timing, at ring position 2, with a bad run. -/
def lockedTrunk (badRun : Nat) : TrunkPort :=
  { TrunkPort.initial 2 with sync := .locked, timing := .trunk, badRun := badRun }

/-- An outcome's next state. -/
def next? : Host.Outcome State Fault Refusal → Option State
  | .next s => some s
  | .fault _ | .refused _ => none

/-- The first reply that a command leaves behind: status, CLAMPED mark and parameters. -/
def replyOf (o : Host.Outcome State Fault Refusal) : Option (Status × Bool × List Byte) :=
  (next? o).bind fun s => s.management.replies.head?.map fun r => (r.status, r.clamped, r.params)

/-! ### Well-formedness -/

/-- A trunk frame one byte short. -/
theorem test_short_trunk_frame_refused :
    (Instr.trunkArrival (List.replicate 117 0)).wellFormed = false := by decide

/-- An uplink frame one byte long, and one of six bytes. -/
theorem test_uplink_length :
    (Instr.linkReport 3 (.frame [0])).wellFormed = false
      ∧ (Instr.linkReport 3 (.frame [0, 0, 0, 0, 0, 0])).wellFormed = true := by decide

/-- An error of one place given twice, for each command that brings errors. -/
theorem test_repeated_upset_refused :
    (Instr.walkStart [(5, .oneBit), (5, .uncorrectable)]).wellFormed = false
      ∧ (Instr.readRecord [(5, .oneBit), (5, .oneBit)]).wellFormed = false
      ∧ (Instr.tablePortGrant [(7, .oneBit), (6, .oneBit), (7, .oneBit)]).wellFormed = false := by decide

/-! ### Worked examples of chapter 1 -/

/-- A TALK connection from a port, with its KEY owners and stamp. -/
def talk (src : Port) (dst : Endpoint) (owners : List Owner) (stamp : Stamp) : Connection :=
  ⟨.port src, dst, .talk, 256, owners, false, stamp⟩

/-- The slots of 1.9 after step 9: 0 to 5 LIVE, the others LOCKED_OUT, the replacement pointer 2. -/
def slots19 : CrosspointSet :=
  let live : List Connection := [
    talk 9 (.lane 12) [.key 9 0, .key 9 1] 1000,
    ⟨.port 0, .port 5, .cueCall, 256, [.cue 3], true, 1900⟩,
    ⟨.lane 20, .port 5, .program, 256, [.controller true], true, 1400⟩,
    talk 4 (.channel 1) [.key 4 0] 1500, talk 7 (.port 11) [.key 7 2] 1600,
    talk 8 (.channel 1) [.key 8 0] 1700]
  ⟨Vector.ofFn fun i => (live[i.val]?.map Slot.live).getD .lockedOut, 2, none⟩

/-- The machine of 1.9 at a show clock value. -/
def show19 (clock : Stamp) : State :=
  (ready.setXps slots19).setTrunk { ready.trunk with clock := clock }

/-- 1.9 step 10: PORT(0) → LANE(30), PRIORITY, evicts slot 0, the oldest unpinned TALK slot; both its keys
get BUSY and SLOT_FULL names its connection; the pointer stays 2. -/
theorem test_example_1_9_eviction :
    let r := (show19 2000).install ⟨.port 0, .lane 30, .priority, 256, .key 0 3⟩
    r.2 = .new 0 (some 0) ∧ r.1.xps.pointer = 2
      ∧ r.1.xps.slots[(0 : SlotIx)] = .live ⟨.port 0, .lane 30, .priority, 256, [.key 0 3], false, 2000⟩
      ∧ r.1.requests = [.busyLamp 9 0, .busyLamp 9 1]
      ∧ r.1.management.notices = [⟨0, .slotFull 0 6 0 (some (.port 9, .lane 12, .talk))⟩] := by decide

/-- 1.9 step 12: a TALK install with no match and no FREE slot fails. -/
theorem test_example_1_9_no_slot :
    (show19 2200).install ⟨.port 6, .channel 2, .talk, 256, .key 6 1⟩ = (show19 2200, .noSlot) := by
  decide

/-- 1.9 step 11 after the eviction, and the end of 1.9: removing CUE(3) frees slot 1 alone. -/
theorem test_example_1_9_removal :
    (slots19.remove fun o => o == .cue 3).slots[(1 : SlotIx)] = .free
      ∧ (slots19.remove fun o => o == .key 9 0).slots[(0 : SlotIx)] =
          .live (talk 9 (.lane 12) [.key 9 1] 1000) := by decide

/-! ### Worked examples of chapter 2 -/

/-- The three roundings of R26, and the one of R32 in 2.10. -/
theorem test_rounding :
    scale 10000 256 = 10000 ∧ scale (-4000) 192 = -3000 ∧ scale 301 85 = 100 ∧ scale 2000 32 = 250 := by
  decide

/-- A connection of the controller at gain 256 unless said otherwise. -/
def wire (src dst : Endpoint) (cls : SlotClass) (gain : Nat) : Connection :=
  ⟨src, dst, cls, gain, [.controller false], false, 0⟩

/-- The frame of 2.10, the stage manager's microphone carrying a value. -/
def mix210 (manager : Int) : MixInput where
  conns := [wire (.port 5) (.channel 2) .talk 256, wire (.port 7) (.channel 2) .talk 192,
    wire (.port 3) (.channel 2) .talk 256, wire (.lane 9) (.channel 2) .talk 128,
    wire (.channel 2) (.port 3) .listen 256, wire (.channel 2) (.port 5) .listen 256,
    wire (.channel 2) (.port 7) .listen 256, wire (.lane 20) (.port 3) .program 256,
    wire (.port 0) (.port 3) .cueCall 256, wire (.channel 2) (.lane 30) .listen 256]
  mics := Vector.ofFn fun p =>
    if p = 0 then gated manager 64 else if p = 3 then 2000 else if p = 5 then 10000
    else if p = 7 then -4000 else 0
  lanes := Vector.ofFn fun n => if n = 9 then 3000 else if n = 20 then 6000 else 0
  ports := Vector.ofFn fun p =>
    if p = 3 then { upPort with sidetone := 32, master := 230, floor := 8 } else upPort

/-- 2.10: the headsets of ports 3, 5 and 7 and lane 30. -/
theorem test_example_2_10 :
    (mix210 40).headset 3 = 9209 ∧ (mix210 40).headset 5 = 500 ∧ (mix210 40).headset 7 = 13500
      ∧ (mix210 40).laneOutput 30 = 9000 := by decide

/-- 2.10, one frame later: port 3 with the stage manager at 12000. -/
theorem test_example_2_10_standby : (mix210 12000).headset 3 = 19990 := by decide

/-- The frame of 2.11. -/
def mix211 : MixInput where
  conns := [wire (.port 10) (.channel 4) .talk 384, wire (.port 11) (.channel 4) .talk 384,
    wire (.channel 4) (.port 10) .listen 256, wire (.channel 4) (.port 11) .listen 256,
    wire (.channel 4) (.port 12) .listen 256, wire (.channel 4) (.lane 31) .listen 256,
    wire (.lane 20) (.port 12) .program 256]
  mics := Vector.ofFn fun p => if p = 10 then 24000 else if p = 11 then 20000 else 0
  lanes := Vector.ofFn fun n => if n = 20 then 8000 else 0
  ports := Vector.replicate 16 upPort

/-- 2.11: the outputs, and the clips that are counted. -/
theorem test_example_2_11 :
    mix211.headset 10 = 30000 ∧ mix211.headset 11 = 32767 ∧ mix211.headset 12 = 32767
      ∧ mix211.laneOutput 31 = 32767
      ∧ (MixEngine.initial.count mix211).channelClips[(4 : Channel)] = 3
      ∧ (MixEngine.initial.count mix211).portClips[(12 : Port)] = 1
      ∧ (MixEngine.initial.count mix211).portClips[(11 : Port)] = 0 := by decide

/-! ### Worked examples of chapters 3 and 4 -/

/-- 3.5: homes of K3 of port 3, CALL of port 15 and circuit 23. -/
theorem test_example_3_5_homes :
    (Region.span64 0).home (.key 3 2) = 2 ∧ (Region.span64 8).home (.key 3 2) = 514
      ∧ (Region.span128 4).home (.key 3 2) = 578 ∧ (Region.span512 1).home (.key 3 2) = 578
      ∧ (Region.span256 0).home (.key 15 4) = 148 ∧ (Region.span512 0).home (.cue 23) = 399 := by decide

/-- The checks of R46 in their order. -/
theorem test_region_checks :
    Region.check 600 100 = .error .badParam ∧ Region.check 1024 64 = .error .badParam
      ∧ Region.check 960 128 = .error .badParam ∧ Region.check 600 64 = .error .align
      ∧ Region.check 512 256 = .ok (.span256 2) := by decide

/-- A record of the table of 3.6: tag bytes P0 and P1, then scenes, endpoints, gain and NEXT. -/
def record (p0 p1 scenes src dst : Byte) (gain next : BitVec 16) : RecordPlace :=
  ⟨Record.decode ([p0, p1, scenes, src, dst] ++ bytesOf16 gain ++ bytesOf16 next), .clean, false⟩

/-- Table RAM of 3.6, the records of KEY(3, 2) being of mode AUTO and LATCHING as in 4.10. -/
def ram36 : TableRam := [
  (512, record 0x81 0x00 0xFF 0x00 0x05 256 200), (578, record 0xA0 0x1A 0x03 0x03 0x82 256 67),
  (579, record 0x90 0x1A 0x02 0x03 0x4E 200 0xFFFF), (712, record 0xC4 0x00 0xFF 0x00 0x09 256 202),
  (714, record 0xC4 0x00 0xFF 0x00 0x0C 256 0xFFFF)]

/-- 3.6: the walks of KEY(0, 0) and circuit 0 share a chain, and the scene arms KEY(3, 2). -/
theorem test_example_3_6 :
    ((readWalk (.key 0 0) (.span256 2) 0 ram36).1.hits.map Hit.place) = [512]
      ∧ ((readWalk (.cue 0) (.span256 2) 0 ram36).1.hits.map Hit.place) = [712, 714]
      ∧ ((readWalk (.key 3 2) (.span256 2) 0 ram36).1.hits.map Hit.place) = [578]
      ∧ ((readWalk (.key 3 2) (.span256 2) 1 ram36).1.hits.map Hit.place) = [578, 579]
      ∧ (readWalk (.key 3 2) (.span256 2) 0 ram36).1.firstUnarmed = some 579 := by decide +kernel

/-- 4.11: after DIRECTORY SETUP(512, 128) circuit 0's walk ends at place 512 without a match. -/
theorem test_example_4_11 :
    let r := (readWalk (.cue 0) (.span128 4) 0 ram36).1
    r.visited = 1 ∧ r.hits = [] ∧ r.miss = (.noMatch, 512) := by decide +kernel

/-- 4.10 steps 3 to 5: an AUTO key tapped for 4,800 frames latches, at 9,600 it is removed, a press
cancels the latch, and the next release is absorbed. -/
theorem test_example_4_10 :
    let s (e : KeyEntry) : State := ready.setEntry 3 2 e
    let held : KeyEntry := ⟨.held, .auto, 1000000, false, .on, []⟩
    ((s held).release 3 2 1004800).1.entry 3 2 = { held with state := .latched }
      ∧ (let r := ((s held).release 3 2 1009600).1
         r.entry 3 2 = { held with state := .off, lamp := .off } ∧ r.requests = [])
      ∧ (let r := ((s { held with state := .latched }).press 3 2 1200000).1
         r.entry 3 2 = { held with state := .off, lamp := .off, swallow := true }
          ∧ r.requests = [])
      ∧ ((s { held with state := .off, swallow := true }).release 3 2 1203000).1.entry 3 2 =
          { held with state := .off } := by decide

/-- R130: the result of a desk request that was handed on before its port dropped is discarded, even where it
comes when the port is UP again; that of another port is not. -/
theorem test_desk_result_discarded :
    let up (p : Port) (s : State) : State := s.setPort p { StationPort.initial with kind := .desk, link := .up }
    let s := (up 3 (up 4 ready)).setRequests [.desk 3 41 true .back, .desk 4 42 true .back]
    let t := up 3 (s.dropPort 3)
    ((t.takeDesk 3 .back (State.cancel 0)).takeDesk 4 .back (State.cancel 0)).ports[(3 : Port)].replies = []
      ∧ ((t.takeDesk 3 .back (State.cancel 0)).takeDesk 4 .back (State.cancel 0)).ports[(4 : Port)].replies.length
        = 1 := by decide +kernel

/-! ### Worked examples of chapters 5 and 6 -/

/-- Circuit 7 of 5.9 before step 8: LATE for cue 142.5, two of its three members having answered. -/
def circuit59 : Circuit := { Circuit.initial with
  members := [⟨1, .a, true, false⟩, ⟨4, .a, true, false⟩, ⟨6, .b, false, false⟩], timeout := 10
  goUnanswered := false, state := .late, cue := some 1425 }

/-- 5.9 steps 8 and 9: the last answer makes a LATE circuit READY with the late marker, and its GO gives
LATE_ANSWERED and a hold to 2,248,000. -/
theorem test_example_5_9_go :
    let ready := circuit59.answered 6 .b
    let went := ready.enterGo (some 1425) 2200000
    ready.state = .ready ∧ ready.late = true
      ∧ went.history = [⟨.lateAnswered, some 1425, 2200000⟩]
      ∧ went.holdDeadline = some ⟨2248000, false⟩ := by decide

/-- 5.9 step 10: the pending standby's deadline, and an answer of another lamp that changes nothing. -/
theorem test_example_5_9_standby :
    (circuit59.enterStandby (some 1430) 2248000).standbyDeadline = some ⟨2408000, false⟩
      ∧ circuit59.answered 6 .a = circuit59 := by decide

/-- The machine of 6.8 before step 12. -/
def show68 : State :=
  let warned (c : Circuit) : Circuit := { c with members := [⟨1, .a, true, false⟩] }
  let circuits := Vector.ofFn fun c : CircuitIx =>
    if c = 7 then { warned Circuit.initial with state := .ready, cue := some 1430 }
    else if c = 3 ∨ c = 12 then warned Circuit.initial else Circuit.initial
  ((ready.setCircuits circuits).setCueList
    ⟨[⟨1410, 0x8, false⟩, ⟨1425, 0x1080, false⟩, ⟨1430, 0x80, true⟩, ⟨1440, 0x1008, true⟩], 2, none,
      none⟩).setTrunk { ready.trunk with clock := 5500000 }

/-- 6.8 step 12: GO NEXT goes circuit 7, and auto-standby warns circuits 3 and 12; the notices come in
circuit order 3 STANDBY, 7 GO, 12 STANDBY. -/
theorem test_example_6_8_go_next :
    let r := show68.goNext
    r.2 = ⟨.done, none, some 1430, 0, 1⟩ ∧ r.1.cueList.cursor = 3
      ∧ r.1.cueList.lastCue = some ⟨1430, 7, 1, 5500000⟩
      ∧ (r.1.management.notices.map Notice.body) =
          [.cueEvent 3 .standby (some 1440) false 5500000, .cueEvent 7 .go (some 1430) false 5500000,
            .cueEvent 12 .standby (some 1440) false 5500000] := by decide +kernel

/-! ### Worked examples of chapters 7 to 10 -/

/-- 7.10: a message abandoned at a bad frame, and the desk's STANDBY of circuit 12. -/
theorem test_example_7_10 :
    (assemble [] 1 true).1 = [1] ∧ assemble [] 41 false = ([], none)
      ∧ assemble [1, 12, 41] 0xCA false = ([], some [1, 12, 41, 0xCA])
      ∧ sumGood [1, 12, 41, 0xCA] = true
      ∧ DeskRequest.decode 1 12 = .ok (.standby 12) ∧ DeskRequest.decode 4 0 = .error .badParam
      ∧ DeskRequest.decode 8 0 = .error .unknown := by decide

/-- 9.5 step 6: the load of five records from place 600 that closes with BAD_RECORD after three. -/
theorem test_example_9_5 :
    (Load.answer ⟨600, 5, 1, 3, [], false, ⟨0, false⟩⟩ .badRecord).params = [2, 0x02, 0x5B] := by decide

/-- 10.5 step 5: a SEVERE report on a full log removes place 0, and the read position falls from 3 to 2. -/
theorem test_example_10_5 :
    let minor (k : FaultKind) : FaultRecord := ⟨k, .nowhere, 0, 1, false⟩
    let log : FaultLog := ⟨[minor .trunkCheck, ⟨.portLost, .port 6, 0, 2, false⟩,
      ⟨.keyOverrun, .port 6, 0, 2, false⟩, ⟨.ramCorrected, .place 578, 0, 1, false⟩,
      ⟨.trunkSyncLoss, .nowhere, 0, 1, false⟩, minor .cellCheck, ⟨.portLost, .port 9, 0, 1, false⟩,
      ⟨.slotExhausted, .port 6, 0, 1, true⟩], 3⟩
    let t := (ready.setFaultLog log).logFault .ramPoisoned (.place 512)
    t.faultLog.readPos = 2 ∧ t.faultLog.records.head? = some ⟨.portLost, .port 6, 0, 2, false⟩
      ∧ t.faultLog.records[7]? = some ⟨.ramPoisoned, .place 512, 0, 1, false⟩ := by decide

/-! ### Layouts of chapter 12 -/

/-- The CRC of R191 (that generator and start value, not reflected and not inverted) has the catalogued
check value 0x29B1 over the digits 1 to 9. -/
theorem test_crc_check_value :
    crc16 [0x31, 0x32, 0x33, 0x34, 0x35, 0x36, 0x37, 0x38, 0x39] = 0x29B1 := by decide +kernel

/-- A reply cell of position 2 with credit 3 (12.4): the sixteen bytes sum to 0. -/
theorem test_reply_cell :
    Reply.cell ⟨20, .badRecord, false, parameters [2, 0x02, 0x5B]⟩ 2 3 =
      [3, 2, 20, 0x0B, 2, 2, 0x5B, 0, 0, 0, 0, 0, 0, 0, 3, 122] := by decide

/-- A downlink (12.2): key lamps from bit 0 up, call lamp FLASH, a reply byte with its start flag, group 1,
and the desk lamp of the group's circuit 4 (circuit 12) at STANDBY. -/
theorem test_downlink_layout :
    (Downlink.write ⟨0x1234, [1, 2, 3, 0], 4, 1, 2, some (0x80, true), 1, [0, 0, 0, 0, 1, 0, 0, 0]⟩).take 9 =
      [0x12, 0x34, 0x39, 0x4C, 0x80, 0x13, 0x00, 0x10, 0x00] := by decide

/-- An uplink (12.2): the sample, K2 and ANSWER_B down, and the start flag. -/
theorem test_uplink_layout :
    Uplink.read [0xFF, 0xFE, 0x42, 0x01, 0x01, 0xBF] = some ⟨0xFFFE, 0x42, 0x01, true⟩ := by decide

/-! ### Witnesses: the frame start and the encodings -/

/-- A queue with a command at its front, and an empty one. -/
theorem witness_StepRunsTheFrontCommand :
    (State.reset.setPending [.missingFrame, .frameStart]).pending = .missingFrame :: [.frameStart]
      ∧ State.reset.pending = [] := ⟨rfl, rfl⟩

/-- Initialisation runs right after reset. -/
theorem witness_RamInitialisationEnds : State.reset.directory.initialising = true := rfl

/-- The machine with its trunk port as given. -/
def trunkAt (t : TrunkPort) : State := ready.setTrunk t

/-- LOCAL timing, TRUNK timing with and without the arrival of the period; a port that is DOWN, one that is
UP with a sample and one without, at the highest slip count; a load in execution. -/
theorem witness_FrameStartClockAndSamples :
    ready.trunk.timing = .localClock
      ∧ (lockedTrunk 0).timing = .trunk ∧ (lockedTrunk 0).period = none
      ∧ { lockedTrunk 1 with period := some .heldMissing }.period ≠ none
      ∧ ready.ports[(0 : Port)].link ≠ .up
      ∧ (portAt 15 { upPort with fifo := [7, 8] }).ports[(15 : Port)].fifo = 7 :: [8]
      ∧ (portAt 15 { upPort with slips := 65535 }).ports[(15 : Port)].fifo = []
      ∧ (portAt 15 upPort).ports[(15 : Port)].link = .up
      ∧ (ready.execute (.load ⟨0, 1, 1, 0, [], false, ⟨1, false⟩⟩)).management.execution =
          .load ⟨0, 1, 1, 0, [], false, ⟨1, false⟩⟩ := by decide +kernel

/-- Two mixes that differ in one microphone alone, and two that differ in a lane. -/
theorem witness_MixMinusAndNoRingReturn :
    let m := mix210 40
    let m' : MixInput := { m with mics := put m.mics 3 (-32768) }
    let m'' : MixInput := { m with lanes := put m.lanes 9 32767 }
    m.conns = m'.conns ∧ m.lanes = m'.lanes ∧ (∀ q : Port, q ≠ 3 → m.mics[q] = m'.mics[q])
      ∧ m.mics[(3 : Port)] ≠ m'.mics[(3 : Port)]
      ∧ m.conns = m''.conns ∧ m.mics = m''.mics ∧ m.lanes ≠ m''.lanes := by decide +kernel

/-- A mix that gives port 0 one value, the master level being 256. -/
def flat (v : Int) (floor : Nat) : MixInput where
  conns := [wire (.lane 0) (.port 0) .listen 256]
  mics := Vector.replicate 16 0
  lanes := Vector.replicate 48 v
  ports := Vector.replicate 16 { upPort with floor := floor }

/-- Outputs at the ends of the range, one beyond each end, and at the floor. -/
theorem witness_OutputsAreSaturated :
    (∀ v ∈ [(32767 : Int), -32768], (flat v 255).ports[(0 : Port)].floor < ((flat v 255).portOutput 0).natAbs
        ∧ -32768 ≤ (flat v 255).portOutput 0 ∧ (flat v 255).portOutput 0 ≤ 32767)
      ∧ 32767 < (flat 32768 255).portOutput 0 ∧ (flat 32768 255).ports[(0 : Port)].floor < 32767
      ∧ (flat (-32769) 255).portOutput 0 < -32768 ∧ (flat (-32769) 255).ports[(0 : Port)].floor < 32768
      ∧ ((flat (-255) 255).portOutput 0).natAbs ≤ (flat (-255) 255).ports[(0 : Port)].floor
      ∧ (flat (-255) 255).ports[(0 : Port)].floor ≤ 255 := by decide +kernel

/-- An UNUSED port, one that is not UP, and replies with four bytes and with one byte left. -/
theorem witness_DownlinkFrames :
    ready.trunk.timing = .localClock ∧ ready.ports[(0 : Port)].kind = .unused
      ∧ (let s := portAt 0 { StationPort.initial with kind := .cueBox, link := .training }
         s.ports[(0 : Port)].kind ≠ .unused ∧ s.ports[(0 : Port)].link ≠ .up)
      ∧ ∀ r ∈ [[(0x80 : Byte), 1, 2, 3], [3]],
          let s := portAt 0 { upPort with kind := .desk, replies := [r, [9]] }
          s.ports[(0 : Port)].kind ≠ .unused ∧ s.ports[(0 : Port)].link = .up
            ∧ s.ports[(0 : Port)].replies = r :: [[9]] ∧ r ≠ [] := by decide +kernel

/-- Every kind of period under TRUNK timing, and none under LOCAL timing. -/
theorem witness_OutgoingTrunkFrame :
    ready.trunk.timing = .localClock ∧ ready.trunk.period = none
      ∧ ∀ x ∈ [Period.taken 255 true (Vector.replicate 48 1) .free,
            .taken 255 false (Vector.replicate 48 1) (.carry (List.replicate 16 0)),
            .heldBad 3 true (Vector.replicate 48 1), .heldMissing, .reinit],
          (trunkAt { lockedTrunk 0 with period := some x }).trunk.period = some x := by decide +kernel

/-- A frame with an IDLE cell. -/
def frame0 (cell : List Byte) : TrunkFrame := ⟨255, true, Vector.replicate 48 0x8000, cell⟩

theorem witness_CellEncodingsAgree :
    (⟨9, .done, true, parameters [1]⟩ : Reply).params.length = 10 := rfl

/-! ### Witnesses: the trunk port -/

/-- A frame's bytes with the check over them. -/
def framed (f : TrunkFrame) : List Byte := f.body ++ bytesOf16 (crc16 f.body)

/-- A check behind 116 bytes is read at byte 116. -/
theorem check_read {body : List Byte} (len : body.length = 116) (x : BitVec 16) :
    wordAt (body ++ bytesOf16 x) 116 = x := by
  simp [wordAt, byteAt, len, bytesOf16]
  refine BitVec.eq_of_getElem_eq fun i h => ?_
  rw [BitVec.getElem_append]
  split <;> simp
  rename_i h
  rw [← BitVec.getLsbD_eq_getElem]
  congr 1
  dsimp
  omega

/-- Such bytes are judged a good frame. -/
theorem judge_framed (f : TrunkFrame) (h : f.cell.length = 16) :
    Arrival.judge (framed f) = .good (.read (framed f)) := by
  have len : f.body.length = 116 := by simp [TrunkFrame.body, h, bytesOf16, Function.comp_def]
  have word := check_read len (crc16 f.body)
  have sync : (f.body ++ bytesOf16 (crc16 f.body)).take 2 = [0xE2, 0x5B] := rfl
  rw [Arrival.judge, framed, if_pos sync, if_pos]
  exact ⟨by simp [len, bytesOf16, trunkFrameLength], by rw [word, List.take_left' len]⟩

/-- Its cell is read as it was written. -/
theorem cell_framed (f : TrunkFrame) (h : f.cell.length = 16) : (TrunkFrame.read (framed f)).cell = f.cell := by
  simp [TrunkFrame.read, framed, TrunkFrame.body, h, bytesOf16, Function.comp_def]

/-- A cell of sixteen bytes; bytes without a sync word, a sync word alone, and 118 bytes whose check agrees or not. -/
theorem witness_TrunkFramesAgree :
    let body := (frame0 (List.replicate 16 0)).body
    let bytes (x : BitVec 16) : List Byte := body ++ bytesOf16 x
    (frame0 (List.replicate 16 0)).cell.length = 16
      ∧ (List.take 2 [0xE2, 0x5A] : List Byte) ≠ [0xE2, 0x5B]
      ∧ (List.take 2 [0xE2, 0x5B] : List Byte) = [0xE2, 0x5B]
      ∧ (∀ x, (bytes x).take 2 = [0xE2, 0x5B] ∧ (bytes x).length = 118)
      ∧ wordAt (bytes (crc16 body)) 116 = crc16 ((bytes (crc16 body)).take 116)
      ∧ wordAt (bytes (~~~(crc16 body))) 116 ≠ crc16 ((bytes (~~~(crc16 body))).take 116) := by
  intro body bytes
  have len : body.length = 116 := rfl
  refine ⟨rfl, by decide, rfl, fun x => ⟨rfl, rfl⟩, ?_, ?_⟩
  · rw [check_read len, List.take_left' len]
  · rw [check_read len, List.take_left' len]
    exact fun h => by simpa using congrArg (fun v : BitVec 16 => v.getLsbD 0) h

/-- Bytes without a sync word, of a good frame and of a bad one, in each state of the sync. -/
theorem witness_FrameSyncOutsideLocked :
    Arrival.judge [] = .noSync ∧ Arrival.judge [0xE2, 0x5B] ≠ .noSync ∧ ready.trunk.sync = .hunt
      ∧ (∃ bytes f, Arrival.judge bytes = .good f)
      ∧ Arrival.judge [0xE2, 0x5B] = .bad (.read [0xE2, 0x5B])
      ∧ (∀ n ∈ [0, 2, 3], (trunkAt { lockedTrunk 0 with sync := .verify, goodRun := n }).trunk.goodRun = n)
      ∧ (trunkAt { lockedTrunk 0 with sync := .verify }).trunk.sync = .verify :=
  ⟨by decide, by decide, rfl, ⟨_, _, judge_framed (frame0 (List.replicate 16 0)) rfl⟩, by decide,
    fun _ _ => rfl, rfl⟩

/-- LOCKED with the bad run at 0, 1 and 2, and a bad frame that arrives. -/
theorem witness_LockedFrameLost :
    (∀ n ∈ [0, 1, 2], (trunkAt (lockedTrunk n)).trunk.sync = .locked
        ∧ (trunkAt (lockedTrunk n)).trunk.badRun = n)
      ∧ Arrival.judge [0xE2, 0x5B] = .bad (.read [0xE2, 0x5B]) :=
  ⟨fun _ _ => ⟨rfl, rfl⟩, by decide⟩

/-- A cell of a kind and address, its sum check good. -/
def cellOf (kind address : Byte) : List Byte :=
  [kind, address] ++ List.replicate 13 0 ++ [0 - (kind + address)]

/-- Good frames with any cell: one that fails its check, and one of every kind and address. -/
theorem witness_LockedFrameTaken :
    (trunkAt (lockedTrunk 0)).trunk.sync = .locked ∧ (trunkAt (lockedTrunk 0)).trunk.position = 2
      ∧ (∀ cell : List Byte, cell.length = 16 → ∃ bytes f, Arrival.judge bytes = .good f ∧ f.cell = cell)
      ∧ (1 :: List.replicate 15 (0 : Byte)).sum ≠ 0
      ∧ ∀ k a : Byte, (cellOf k a).length = 16 ∧ (cellOf k a).sum = 0 ∧ byteAt (cellOf k a) 0 = k
          ∧ byteAt (cellOf k a) 1 = a :=
  ⟨rfl, rfl, fun cell h => ⟨_, _, judge_framed (frame0 cell) h, cell_framed (frame0 cell) h⟩, by decide,
    fun _ _ => ⟨rfl, by simp [cellOf, List.sum_cons, List.replicate], rfl, rfl⟩⟩

/-- The machine with so many commands, replies and an execution. -/
def queues (commands replies : Nat) (e : Execution) : State :=
  ready.setManagement { ready.management with
    commands := List.replicate commands (the 1 []), execution := e
    replies := List.replicate replies ⟨0, .done, false, List.replicate 10 0⟩ }

/-- A load that expects so many records. -/
def loadOf (expected : Nat) : Load := ⟨0, 64, expected, 0, [], false, ⟨0, false⟩⟩

/-- COMMAND with 3 and 4 commands held, and with 7 and 8 replies held or reserved; DATA into a load that
expects one record, into one that expects none, and with no load. -/
theorem witness_CellsHandedOver :
    (byteAt (cellOf 1 2) 0).toNat = 1 ∧ (byteAt (cellOf 2 2) 0).toNat = 2
      ∧ (queues 3 0 .none).management.commands.length < 4
      ∧ 4 ≤ (queues 4 7 .none).management.commands.length
      ∧ (queues 4 7 .none).management.replies.length + 0 < 8
      ∧ 8 ≤ (queues 4 8 .none).management.replies.length + 0
      ∧ 8 ≤ (queues 4 7 (.load (loadOf 1))).management.replies.length + 1
      ∧ (queues 1 0 (.load (loadOf 1))).management.execution = .load (loadOf 1) ∧ (loadOf 1).expected ≠ 0
      ∧ (loadOf 0).expected = 0 := by decide +kernel

/-! ### Witnesses: the station ports -/

/-- A port in training. -/
def training (good bad : Nat) : StationPort :=
  { upPort with link := .training, goodRun := good, badRun := bad }

/-- An UNUSED port; a good frame at a port that is DOWN, and in training at good runs 14 and 15; a bad frame
there, and in training at bad runs 6 and 7. -/
theorem witness_LinkReportsOfPortsNotUp :
    ready.ports[(0 : Port)].kind = .unused
      ∧ (portAt 3 { upPort with link := .down }).ports[(3 : Port)].kind ≠ .unused
      ∧ Uplink.read (List.replicate 6 0) = some ⟨0, 0, 0, false⟩
      ∧ Uplink.read [1, 0, 0, 0, 0, 0] = none
      ∧ (∀ n ∈ [14, 15], let x := (portAt 3 (training n 0)).ports[(3 : Port)]
          x.link = .training ∧ x.goodRun = n ∧ x.fifo = [] ∧ x.assembler = [])
      ∧ ∀ n ∈ [6, 7], let x := (portAt 3 (training 0 n)).ports[(3 : Port)]
          x.link = .training ∧ x.badRun = n := by decide +kernel

/-- A DESK that is UP, three message bytes held, with 27 and with 28 key events queued; desk messages at the edges of
the circuit field and of the kinds. -/
theorem witness_GoodFrameOfAnUpPort :
    (∀ n ∈ [27, 28],
      let desk : StationPort := { upPort with kind := .desk, assembler := [1, 12, 41] }
      let s := (portAt 3 desk).withQueue (List.replicate n (KeyEvent.cueOpen 0))
      s.ports[(3 : Port)].kind ≠ .unused ∧ s.ports[(3 : Port)].link = .up
        ∧ Uplink.read [0x12, 0x34, 0x7F, 0xCA, 0, 0x71] = some ⟨0x1234, 0x7F, 0xCA, false⟩)
      ∧ DeskRequest.decode 3 23 = .ok (.cancel 23) ∧ DeskRequest.decode 1 24 = .error .badParam
      ∧ DeskRequest.decode 7 255 = .ok .skip ∧ DeskRequest.decode 4 254 = .error .badParam
      ∧ DeskRequest.decode 0 0 = .error .unknown ∧ DeskRequest.decode 8 255 = .error .unknown := by
  decide +kernel

/-- An UP port at bad runs 6 and 7. -/
theorem witness_LostFrameOfAnUpPort :
    ∀ n ∈ [0, 1, 6, 7], let s := portAt 3 { upPort with goodRun := 0, badRun := n }
      s.ports[(3 : Port)].kind ≠ .unused ∧ s.ports[(3 : Port)].link = .up
        ∧ s.ports[(3 : Port)].badRun = n ∧ Uplink.read [1, 0, 0, 0, 0, 0] = none := by decide +kernel

/-- A flagged port with 15 and with 16 events queued, and a port that is not flagged. -/
theorem witness_StatePosts :
    let s (n : Nat) : State :=
      (portAt 3 { upPort with resync := true }).withQueue (List.replicate n (KeyEvent.cueOpen 0))
    (s 15).ports[(3 : Port)].resync = true ∧ (s 15).walker.queue.length < 16
      ∧ Request.removePortKeys 3 ∉ (s 15).requests ∧ Request.portRowReset 3 ∉ (s 15).requests
      ∧ 16 ≤ (s 16).walker.queue.length ∧ ready.ports[(3 : Port)].resync = false := by decide +kernel

/-! ### Witnesses: key events and walks -/

/-- The machine with port 6 UP, an event at the head of the queue, and the entry of its K2 as given. -/
def keyed (e : KeyEvent) (x : KeyEntry) : State :=
  ((portAt 6 upPort).withQueue [e, .cueOpen 0]).setEntry 6 1 x

/-- A key entry in a state. -/
def entryIn (st : KeyState) (mode : KeyMode) (swallow : Bool) : KeyEntry :=
  ⟨st, mode, 0xFFFFFFFF, swallow, .on, []⟩

/-- Every state in which a press may find its key. -/
theorem witness_KeyPressTaken :
    ∀ st ∈ [KeyState.off, .held, .latched, .missed, .refused],
      let s := keyed (.press 6 1 5) (entryIn st .auto true)
      s.walker.queue = .press 6 1 5 :: [.cueOpen 0] ∧ s.walkerReady ∧ s.ports[(6 : Port)].link = .up
        ∧ (s.entry 6 1).state = st := by
  unfold State.walkerReady
  decide +kernel

/-- A release that is absorbed; every state and mode of a release that is not; and AUTO keys 6,399 and
6,400 frames after their press, the show clock having wrapped between. -/
theorem witness_KeyReleaseTaken :
    (let s := keyed (.release 6 1 5) (entryIn .latched .auto true)
     s.walker.queue = .release 6 1 5 :: [.cueOpen 0] ∧ s.walkerReady ∧ s.ports[(6 : Port)].link = .up
        ∧ (s.entry 6 1).swallow = true)
      ∧ (∀ st ∈ [KeyState.off, .held, .latched, .missed, .refused],
          ∀ m ∈ [KeyMode.momentary, .latching, .auto],
          let e := (keyed (.release 6 1 5) (entryIn st m false)).entry 6 1
          e.swallow = false ∧ e.state = st ∧ e.mode = m)
      ∧ (6398 - (entryIn .held .auto false).stamp).toNat < 6400
      ∧ 6400 ≤ (6399 - (entryIn .held .auto false).stamp).toNat := by
  unfold State.walkerReady
  decide +kernel

/-- A circuit in a state, with a member who has not answered. -/
def inState (st : CircuitState) : Circuit :=
  { Circuit.initial with members := [⟨4, .b, false, false⟩], state := st }

/-- An empty queue, a walker with work in hand, and initialisation running; an event of a port that is not
UP; CUE_OPEN of an IDLE circuit and of one in STANDBY; RETRY of a key in every state; a STATE. -/
theorem witness_EventsSkippedOrWalked :
    ready.walker.queue = [] ∧ (ready.setJob (.waiting (.cue 0) false [])).walker.job ≠ .idle
      ∧ State.reset.directory.initialising = true
      ∧ (let s := ready.withQueue [.state 6 0x7F 5]
         s.walker.queue = .state 6 0x7F 5 :: [] ∧ s.walkerReady
           ∧ KeyEvent.ofPort 6 (.state 6 0x7F 5) = true ∧ s.ports[(6 : Port)].link ≠ .up
           ∧ KeyEvent.ofPort 6 (.retry 6 4) = true)
      ∧ (∀ st ∈ [CircuitState.idle, .go], let s := (circuitAt 23 (inState st)).withQueue [.cueOpen 23]
          s.walkerReady ∧ s.circuits[(23 : CircuitIx)].state = st)
      ∧ ∀ st ∈ [KeyState.off, .held, .latched, .missed, .refused],
          let s := keyed (.retry 6 1) (entryIn st .auto false)
          s.walker.queue = .retry 6 1 :: [.cueOpen 0] ∧ s.walkerReady ∧ s.ports[(6 : Port)].link = .up
            ∧ (s.entry 6 1).state = st := by
  unfold State.walkerReady
  decide +kernel

/-- A key in every state and mode, swallow-release set and clear, and the AUTO boundary. -/
theorem witness_StateKeysApplied :
    (∀ st ∈ [KeyState.off, .held, .latched, .missed, .refused],
        ∀ m ∈ [KeyMode.momentary, .latching, .auto], ∀ b ∈ [true, false],
        let e := (keyed (.cueOpen 0) (entryIn st m b)).entry 6 1
        e.state = st ∧ e.mode = m ∧ e.swallow = b)
      ∧ (6398 - (entryIn .held .auto false).stamp).toNat < 6400
      ∧ 6400 ≤ (6399 - (entryIn .held .auto false).stamp).toNat := by decide +kernel

/-- The machine with a job, table RAM of 3.6 and the region of 3.6. -/
def working (j : Job) : State :=
  (ready.setDirectory { ready.directory with ram := ram36, region := .span256 2 }).setJob j

/-- The record of place 578 in 3.6. -/
def hit578 : Hit := ⟨578, (record 0xA0 0x1A 0x03 0x03 0x82 256 67).content⟩

/-- A CALL record of KEY(3, 2) to port 9. -/
def call9 : Hit := ⟨579, (record 0xA3 0x1A 0x03 0x03 0x09 256 67).content⟩

/-- A walk that waits; the port free for either party, and for the management engine that wants nothing; an error
that arrives; places of every kind that end a reading or let it go on, with NEXT at the span and below it. -/
theorem witness_WalkReads :
    (∀ turn ∈ [PortTurn.either, .management, .walker],
      let s := working (.waiting (.cue 0) false [])
      let s := s.setDirectory { s.directory with turn := turn }
      s.walker.job = .waiting (.cue 0) false [] ∧ s.directory.initialising = false ∧ s.directory.ram.wf
        ∧ (s.directory.turn = .management → s.management.accessWaiting = false)
        ∧ (512 : Place).val = s.directory.region.base
            + ((Tag.cue 0).keyCode * 73 % 1024) % s.directory.region.span)
      ∧ ((578, Upset.oneBit) : Place × Upset).1.val ≠ 579 := by decide +kernel

/-- A place of each kind that a reading may meet, with NEXT at the span, at END and below the span. -/
theorem witness_WalkReads_places :
    (∀ e ∈ [Ecc.clean, .oneBit, .uncorrectable], ∀ b ∈ [true, false],
      TableRam.read (TableRam.write ram36 578 ⟨hit578.content, e, b⟩) 578 = ⟨hit578.content, e, b⟩)
      ∧ hit578.content.valid = true ∧ (TableRam.read ram36 600).content.valid = false
      ∧ (∀ n ∈ [(0xFFFF : BitVec 16), 256], n = 0xFFFF ∨ 256 ≤ n.toNat)
      ∧ ¬ ((255 : BitVec 16) = 0xFFFF ∨ 256 ≤ (255 : BitVec 16).toNat)
      ∧ (Region.span256 2).span = 256 ∧ 767 = (Region.span256 2).base + (255 : BitVec 16).toNat := by
  refine ⟨by decide +kernel, by decide +kernel, by decide +kernel, fun n h => ?_, by decide, by decide⟩
  simp only [List.mem_cons, List.not_mem_nil, or_false] at h
  rcases h with rfl | rfl
  · exact .inl rfl
  · exact .inr (by decide)

/-- A walk of a tag with a reading, in a phase. -/
def walkOf (tag : Tag) (retry : Bool) (r : Reading) (phase : WalkPhase) : Walk :=
  ⟨tag, retry, r, phase, false, false⟩

/-- What a walk for the tag reads in 3.6. -/
def reading36 (tag : Tag) : Reading := (readWalk tag (.span256 2) 0 ram36).1

/-- A key walk whose port is not UP, a RETRY of a key that is HELD, a cue walk of an IDLE circuit, and walks whose port
dropped or whose circuit was cancelled during the reading, and one of another tag. -/
theorem witness_WalkSuppressed :
    (∀ t ∈ [Tag.key 6 1, .cue 23], let w := walkOf t true (reading36 t) .read
        (working (.walking w [])).walker.job = .walking w [] ∧ w.phase = .read)
      ∧ (let s := working .idle
         Request.removePortKeys 6 ∉ s.requests ∧ Request.portRowReset 6 ∉ s.requests
           ∧ s.ports[(6 : Port)].link ≠ .up ∧ Request.removeCircuit 23 ∉ s.requests
           ∧ s.circuits[(23 : CircuitIx)].state = .idle)
      ∧ (let s := keyed (.cueOpen 0) (entryIn .held .auto false)
         s.ports[(6 : Port)].link = .up ∧ (s.entry 6 1).state ≠ .missed
           ∧ (s.entry 6 1).state ≠ .refused)
      ∧ (∀ t ∈ [Tag.key 6 1, .cue 23],
          let w := walkOf t false (reading36 t) .read
          (∀ u ∈ [Tag.key 6 4, .cue 22], (u == t) = false)
            ∧ ((working (.walking w [])).suppress (· == t)).walker.job = .walking { w with suppressed := true } []) := by
  decide +kernel

/-- A circuit with a call path cancelled during the reading of its walk and put in STANDBY again before the end: the
walk is suppressed and installs nothing (R71, R96, R100 row 3), and the second CUE_OPEN stays in the queue. -/
theorem test_cancelled_and_in_standby_again :
    let w := walkOf (.cue 0) false (reading36 (.cue 0)) .read
    let s := (circuitAt 0 { inState .standby with members := [⟨4, .a, false, false⟩] }).setJob (.walking w [])
    let t := ((s.cancel 0).1.standby 0 none).1.setRequests []
    t.circuits[(0 : CircuitIx)].state = .standby
      ∧ ((next? (exec .walkEnd t)).map fun u => (u.walker.job, u.walker.queue, u.xps == t.xps)) =
        some (.idle, [.cueOpen 0], true) := by decide +kernel

/-- Readings without hits that end in each way, at the home and beyond it, with and without an unarmed
match; a port that is UP and a circuit that is not IDLE. -/
theorem witness_WalkWithoutHits :
    (∀ x ∈ [(ReadingEnd.poisoned 512, 1), (.chainLimit 714, 16), (.invalid 512, 1), (.invalid 712, 2),
          (.chainEnd, 16)],
        ∀ u ∈ [none, some (579 : Place)], ∀ t ∈ [Tag.key 6 1, .cue 23],
        let r : Reading := ⟨512, x.2, [], 0, none, u, none, x.1, []⟩
        let w := walkOf t false r .read
        let s := (((portAt 6 upPort).setCircuit 23 (inState .late)).setJob (.walking w []))
        s.walker.job = .walking w [] ∧ w.phase = .read ∧ w.suppressed = false ∧ s.decisionHeld w.tag = false
          ∧ w.reading.hits = [] ∧ s.ports[(6 : Port)].link = .up
          ∧ s.circuits[(23 : CircuitIx)].state ≠ .idle) := by decide +kernel

/-- The two hits of circuit 0 and the one hit of KEY(3, 2) in 3.6, installs both; and hits of KEY(3, 2) that
begin with a CALL, and that are all CALL. -/
theorem witness_WalkBeginsInstalls :
    ((reading36 (.key 3 2)).hits.map fun h => (h.place, h.content.cls.toNat)) = [(578, 0)]
      ∧ ((reading36 (.cue 0)).hits.map fun h => (h.place, h.content.cls.toNat)) = [(712, 4), (714, 4)]
      ∧ (∀ x ∈ [([], [hit578]), ([call9], [hit578, call9]), ([call9, call9], [])],
          ∀ t ∈ [Tag.key 3 2, .cue 0],
          let w := walkOf t false { reading36 t with hits := x.1 ++ x.2 } .read
          let s := (((portAt 3 upPort).setCircuit 0 (inState .standby)).setJob (.walking w []))
          s.walker.job = .walking w [] ∧ w.suppressed = false ∧ s.decisionHeld w.tag = false
            ∧ s.ports[(3 : Port)].link = .up
            ∧ s.circuits[(0 : CircuitIx)].state ≠ .idle ∧ w.reading.hits ≠ []
            ∧ (x.1.map fun h => (h.content.cls.toNat, Endpoint.decode h.content.dest))
                = (x.1.map fun _ => (9 : Port)).map (fun q => (3, some (.port q)))
            ∧ ∀ h, x.2.head? = some h → h.content.cls.toNat ≠ 3) := by decide +kernel

/-- Walks of a key and of a circuit whose hits are made good, with and without a success. -/
theorem witness_WalkOutcomes :
    ∀ t ∈ [Tag.key 3 2, .cue 0], ∀ ok ∈ [true, false],
      let w := walkOf t false (reading36 t) (.making [] ok)
      (working (.walking w [])).walker.job = .walking w [] ∧ w.phase = .making [] ok := by decide +kernel

/-! ### Witnesses: the crosspoint set -/

/-- What a test finds of every LIVE slot holds of each. -/
theorem each_live {x : CrosspointSet} (p : SlotIx → Connection → Bool)
    (h : (List.finRange 64).all (fun i => x.slots[i].connection?.all (p i)) = true) :
    ∀ (i : SlotIx) (c : Connection), x.slots[i] = .live c → p i c = true := by
  intro i c hc
  have := List.all_eq_true.mp h i (List.mem_finRange i)
  rwa [hc] at this

/-- A set whose LIVE slots are told apart by their source is distinct. -/
theorem distinct_of {x : CrosspointSet} (f : Endpoint → SlotIx)
    (h : (List.finRange 64).all (fun i => x.slots[i].connection?.all fun c => f c.source == i) = true) :
    x.distinct := by
  intro i j a b ha hb hs _ _
  have hi := each_live (fun i c => f c.source == i) h i a ha
  have hj := each_live (fun i c => f c.source == i) h j b hb
  simp only [beq_iff_eq] at hi hj
  rw [← hi, ← hj, hs]

/-- A crosspoint set given slot by slot, its replacement pointer 5. -/
def setOf (f : SlotIx → Slot) : CrosspointSet := ⟨Vector.ofFn f, 5, none⟩

/-- The slot of a lane in these tests. -/
def slotOf : Endpoint → SlotIx
  | .lane n => n.castLE (by decide)
  | .port _ | .channel _ => 0

/-- A connection from a lane to port 5. -/
def from' (n : Lane) (cls : SlotClass) (owners : List Owner) (stamp : Stamp) : Connection :=
  ⟨.lane n, .port 5, cls, 256, owners, pinnedBy owners, stamp⟩

/-- Slot 9 LIVE with so many owners, the others FREE. -/
def crowd (n : Nat) : CrosspointSet :=
  setOf fun i =>
    if i = 9 then .live (from' 9 .talk ([Owner.key 1 0, .key 1 1, .cue 3, .key 2 4].take n) 7) else .free

/-- Owners that are the same without being equal, and that are not; owners that pin and that do not; and an
install from channel to channel. -/
theorem witness_InstallTaken_words :
    Owner.same (.controller true) (.controller false) = true ∧ Owner.same (.key 1 0) (.key 1 1) = false
      ∧ pinnedBy [.key 1 0, .controller true] = true ∧ pinnedBy [.key 1 0, .cue 23] = true
      ∧ pinnedBy [.key 1 0, .controller false] = false
      ∧ (let r : Install := ⟨.channel 0, .channel 11, .talk, 256, .key 3 0⟩
         r.source = .channel 0 ∧ r.dest = .channel 11) := by decide

/-- An install that finds its connection in slot 9, by an owner that is there and by one that is not, with
three owners and with four. -/
theorem witness_InstallTaken_match :
    ∀ n ∈ [3, 4], (crowd n).distinct ∧ (crowd n).slots[(9 : SlotIx)] =
        .live (from' 9 .talk ([Owner.key 1 0, .key 1 1, .cue 3, .key 2 4].take n) 7)
      ∧ ((from' 9 .talk ([Owner.key 1 0, .key 1 1, .cue 3, .key 2 4].take n) 7).owners.length = n
        ∧ (∃ o ∈ [Owner.key 1 0, .key 1 1, .cue 3, .key 2 4].take n, o.same (.cue 3) = true)
        ∧ ∀ o ∈ [Owner.key 1 0, .key 1 1, .cue 3, .key 2 4].take n, o.same (.controller true) = false) := by
  intro n hn
  simp only [List.mem_cons, List.not_mem_nil, or_false] at hn
  obtain rfl | rfl := hn <;> exact ⟨distinct_of slotOf (by decide +kernel), by decide +kernel⟩

/-- One FREE slot, at the replacement pointer and 63 slots beyond it, and no LIVE slot with the connection. -/
theorem witness_InstallTaken_free :
    ∀ n ∈ [(0 : Fin 64), 63], let x := setOf fun i => if i = 5 + n then .free else .retired
      x.distinct ∧ (∀ (i : SlotIx) (c : Connection), x.slots[i] = .live c → c.source ≠ .port 3)
        ∧ x.slots[x.pointer + n] = .free ∧ ∀ m : Fin 64, m < n → x.slots[x.pointer + m] ≠ .free := by
  intro n hn
  simp only [List.mem_cons, List.not_mem_nil, or_false] at hn
  obtain rfl | rfl := hn <;>
    exact ⟨distinct_of slotOf (by decide +kernel), fun i c h => by
      simpa using each_live (fun _ c => c.source != .port 3) (by decide +kernel) i c h, by decide +kernel⟩

/-- No FREE slot: two TALK slots of one age, an older LISTEN slot and an older pinned TALK slot. -/
def full : CrosspointSet :=
  setOf fun i =>
    if i = 2 then .live (from' 2 .talk [.controller false] 100)
    else if i = 7 then .live (from' 7 .talk [.key 1 1, .key 4 0] 100)
    else if i = 9 then .live (from' 9 .listen [.cue 1] 50)
    else if i = 11 then .live (from' 11 .talk [.cue 1] 10)
    else .retired

/-- The oldest unpinned TALK slot of that set, the lowest of equals; and a set whose TALK slots are all
pinned. -/
theorem witness_InstallTaken_evict :
    full.distinct ∧ (∀ i : SlotIx, full.slots[i] ≠ .free)
      ∧ (∀ (i : SlotIx) (c : Connection), full.slots[i] = .live c → c.source ≠ .port 3)
      ∧ (∃ c, full.slots[(2 : SlotIx)] = .live c ∧ c.cls = .talk ∧ c.pinned = false
        ∧ ∀ (j : SlotIx) (d : Connection), full.slots[j] = .live d → d.cls = .talk → d.pinned = false →
          (150 - d.stamp : Stamp).toNat < (150 - c.stamp : Stamp).toNat ∨ (d.stamp = c.stamp ∧ 2 ≤ j))
      ∧ (let x := setOf fun i => if i = 11 then .live (from' 11 .talk [.cue 1] 10) else .lockedOut
         x.distinct ∧ (∀ i : SlotIx, x.slots[i] ≠ .free)
          ∧ ∀ (i : SlotIx) (c : Connection), x.slots[i] = .live c → c.cls = .talk → c.pinned = true) := by
  refine ⟨distinct_of slotOf (by decide +kernel), by decide +kernel, fun i c h => ?_,
    ⟨from' 2 .talk [.controller false] 100, by decide +kernel, rfl, rfl, fun j d h ht hp => ?_⟩,
    distinct_of slotOf (by decide +kernel), by decide +kernel, fun i c h ht => ?_⟩
  · simpa using each_live (fun _ c => c.source != .port 3) (by decide +kernel) i c h
  · have := each_live (x := full) (fun j d => d.cls != .talk || d.pinned || (d.stamp == 100 && decide (2 ≤ j)))
      (by decide +kernel) j d h
    simp only [ht, hp, bne_self_eq_false, Bool.or_false, Bool.false_or, Bool.and_eq_true, beq_iff_eq,
      decide_eq_true_eq] at this
    exact .inr this
  · have := each_live (fun _ c => c.cls != .talk || c.pinned) (by decide +kernel) i c h
    simpa [ht] using this

/-- An install of a class by a key of port 3. -/
def wants (cls : SlotClass) : Install := ⟨.port 3, .lane 30, cls, 256, .key 3 0⟩

/-- Notice queues of 15 and of 16 notices, the sequence number going from 255 to 0; an install into the last FREE slot
and one that leaves another, an eviction, and a failure. -/
theorem witness_InstallNotices :
    let one := ready.setXps (setOf fun i => if i = 4 then .free else .retired)
    let two := ready.setXps (setOf fun i => if i = 4 ∨ i = 5 then .free else .retired)
    let none' := (ready.setXps full).setTrunk { ready.trunk with clock := 150 }
    (∀ n ∈ [15, 16],
      let body : NoticeBody := .fault .loadTimeout .nowhere 0
      let t := (ready.setManagement { ready.management with
        notices := List.replicate n ⟨0, body⟩, seq := 255 }).offer body
      t.management.seq = 0
        ∧ t.management.notices = List.replicate n ⟨0, body⟩ ++ (if n < 16 then [⟨255, body⟩] else [])
        ∧ t.requests = if n < 16 then [] else [.fault .noticeOverrun .nowhere])
      ∧ (one.install (wants .talk)).2 = .new 4 none ∧ (one.install (wants .talk)).1.xps.freeCount = 0
      ∧ (two.install (wants .talk)).2 = .new 5 none ∧ (two.install (wants .talk)).1.xps.freeCount ≠ 0
      ∧ (none'.install (wants .priority)).2 = .new 2 (some 2)
      ∧ none'.xps.slots[(2 : SlotIx)] = .live (from' 2 .talk [.controller false] 100)
      ∧ (none'.install (wants .talk)).2 = .noSlot := by decide +kernel

/-- A walk with its last hit, and with a CALL and an install to follow; the install of an abandoned walk, and a CALL hit. -/
theorem witness_WalkInstallTaken :
    (∀ t ∈ [Tag.key 3 2, .cue 0], ∀ hs ∈ [[], [call9, hit578]],
      let w := walkOf t false (reading36 t) (.making (hit578 :: hs) false)
      (working (.walking w [])).walker.job = .walking w [] ∧ w.phase = .making (hit578 :: hs) false)
      ∧ [call9, hit578] = [call9] ++ [hit578]
      ∧ ([call9].map fun x => (x.content.cls.toNat, Endpoint.decode x.content.dest))
          = [(9 : Port)].map (fun q => (3, some (.port q)))
      ∧ (∀ x, [hit578].head? = some x → x.content.cls.toNat ≠ 3)
      ∧ Endpoint.decode hit578.content.source = some (.port 3)
      ∧ Endpoint.decode hit578.content.dest = some (.channel 2)
      ∧ SlotClass.decode hit578.content.cls.toNat = some .talk
      ∧ (let s := ready.setXps { full with abandoned := some (wants .priority) }
         s.walker.job.walk? = none ∧ s.xps.abandoned = some (wants .priority))
      ∧ call9.content.cls.toNat = 3 ∧ Endpoint.decode call9.content.dest = some (.port 9) := by
  decide +kernel

/-- Slots that list no owner that goes, only such owners, and both. -/
theorem witness_OwnersRemoved :
    let owners := [Owner.key 1 0, .key 1 1, .cue 3]
    (crowd 3).slots[(9 : SlotIx)] = .live (from' 9 .talk owners 7)
      ∧ (∀ o ∈ owners, (o == .key 2 4) = false) ∧ (∀ o ∈ owners, (fun _ : Owner => true) o = true)
      ∧ (∃ o ∈ owners, (o == .cue 3) = true) ∧ (∃ o ∈ owners, (o == .cue 3) = false) := by decide +kernel

/-- Walks that no row reset, removal or BUSY request of port 15, KEY(15, 4) and circuit 23 awaits: of another key
or circuit, of the same one while it reads, and one that waits for the table port. -/
def otherJobs : List Job :=
  .waiting (.key 15 4) false [] :: [Tag.key 3 2, .cue 0].map (fun t =>
      .walking (walkOf t false (reading36 t) (.making [hit578] false)) [])
    ++ [Tag.key 15 4, .cue 23].map fun t => .walking (walkOf t false (reading36 t) .read) []

/-- None of those walks makes good the hits of a key of port 15 or of circuit 23. -/
theorem otherJobs_free : ∀ j ∈ otherJobs, ∀ w rest hs ok, j = .walking w rest →
    (∀ k, w.tag = .key 15 k → w.phase ≠ .making hs ok) ∧ (w.tag = .cue 23 → w.phase ≠ .making hs ok) := by
  intro j hj w rest hs ok h
  simp only [otherJobs, List.map_cons, List.map_nil, List.cons_append, List.nil_append, List.mem_cons,
    List.not_mem_nil, or_false] at hj
  obtain rfl | rfl | rfl | rfl | rfl := hj <;> cases h <;> simp [walkOf]

/-- Those walks in hand, with the requests that they do not delay in transit. -/
theorem witness_RequestsDuringWalks :
    ∀ j ∈ otherJobs, let s := (asked [.removePortKeys 15, .removeCircuit 23, .portRowReset 15,
        .busyLamp 15 4]).setJob j
      s.walker.job = j ∧ s.xps.abandoned = none ∧ Request.removePortKeys 15 ∈ s.requests
        ∧ Request.removeCircuit 23 ∈ s.requests ∧ Request.portRowReset 15 ∈ s.requests
        ∧ Request.busyLamp 15 4 ∈ s.requests := by
  intro j _
  refine ⟨rfl, rfl, ?_, ?_, ?_, ?_⟩ <;>
    change _ ∈ [Request.removePortKeys 15, .removeCircuit 23, .portRowReset 15, .busyLamp 15 4] <;> decide

/-- Events of port 6 that remove its key 1: a press of it LATCHED, a release of it HELD in mode MOMENTARY and one
in mode AUTO at the threshold, and a STATE that has key 0, HELD, down; and one that removes nothing. -/
theorem witness_RemoveKey :
    (∀ x ∈ [(KeyEvent.press 6 1 9, KeyState.latched, KeyMode.auto), (.release 6 1 9, .held, .momentary),
        (.release 6 1 6399, .held, .auto), (.state 6 0x01 9, .held, .momentary)],
      let s := (keyed x.1 (entryIn x.2.1 x.2.2 false)).setEntry 6 0 (entryIn .held .auto false)
      s.walkerReady ∧ s.ports[(6 : Port)].link = .up ∧ s.walker.queue = x.1 :: [.cueOpen 0]
        ∧ (s.entry 6 1).state = x.2.1 ∧ (s.entry 6 1).mode = x.2.2 ∧ (s.entry 6 1).swallow = false
        ∧ (s.entry 6 0).state ≠ .off
        ∧ 6400 ≤ (6399 - (s.entry 6 1).stamp).toNat
        ∧ ∀ j : Key, j < 1 → (1 : BitVec 7).getLsbD j.val = true)
      ∧ (keyed (.cueOpen 1) (entryIn .held .momentary false)).walker.queue = [.cueOpen 1, .cueOpen 0] := by
  unfold State.walkerReady
  decide +kernel

/-- Each removal request in transit, with no walk in flight and no abandoned install of its owners, and with
each of them. -/
theorem witness_RemovalRequests :
    (let s := asked [.removePortKeys 15, .removeCircuit 23, .removeKeysAndCues]
     Request.removePortKeys 15 ∈ s.requests
      ∧ Request.removeCircuit 23 ∈ s.requests ∧ Request.removeKeysAndCues ∈ s.requests
      ∧ s.walker.job.walk? = none ∧ s.xps.abandoned = none)
      ∧ (∀ o ∈ [Owner.key 15 4, .cue 23], let r := { wants .priority with owner := o }
          ((asked [.removePortKeys 15, .removeCircuit 23]).setXps
            { full with abandoned := some r }).xps.abandoned = some r ∧ r.owner = o)
      ∧ ∀ t ∈ [Tag.key 15 4, .cue 23],
          let w := walkOf t false (reading36 t) (.making [hit578] false)
          ((asked [.removePortKeys 15, .removeCircuit 23]).setJob (.walking w [])).walker.job
            = .walking w [] ∧ w.tag = t ∧ w.phase = .making [hit578] false := by decide +kernel

/-- A SOFT RESET in execution that discarded three commands, with the requests in transit. -/
def resetting (rs : List Request) : State :=
  (asked rs).setManagement { ready.management with commands := [the 0x02 []], execution := .softReset 3 }

/-- A BUSY request for a key in each state, and while a walk makes good this key's hits; a row reset and a
walker reset in transit, the latter with another request of the soft reset and as its last. -/
theorem witness_LampAndRowRequests :
    (∀ st ∈ [KeyState.off, .held, .latched, .missed, .refused],
      let s := (keyed (.cueOpen 0) (entryIn st .auto false)).setRequests [.busyLamp 6 1]
      Request.busyLamp 6 1 ∈ s.requests ∧ s.walker.job = .idle ∧ (s.entry 6 1).state = st)
      ∧ (let w := walkOf (.key 6 1) false (reading36 (.key 6 1)) (.making [hit578] true)
         let s := (asked [.busyLamp 6 1, .portRowReset 6]).setJob (.walking w [])
         Request.busyLamp 6 1 ∈ s.requests ∧ Request.portRowReset 6 ∈ s.requests ∧ s.walker.job = .walking w [] ∧ w.tag = .key 6 1
          ∧ w.phase = .making [hit578] true)
      ∧ (let s := asked [.portRowReset 6, .walkerReset, .circuitAbort]
         Request.portRowReset 6 ∈ s.requests ∧ s.walker.job = .idle ∧ Request.walkerReset ∈ s.requests
          ∧ ∃ r ∈ s.requests.erase .walkerReset, r.ofReset = true)
      ∧ (resetting [.walkerReset, .busyLamp 6 1]).lastOfReset .walkerReset 3 (the 0x02 []) [] := by
  unfold State.lastOfReset
  decide +kernel

/-! ### Witnesses: cue circuits and the cue list -/

/-- A circuit in each state, with a member and without, with a timeout of 0 and of 255, and a key event
queue with 31 and with 32 events. -/
theorem witness_StandbyRule :
    (∀ st ∈ [CircuitState.idle, .standby, .ready, .late, .go],
      (circuitAt 23 (inState st)).circuits[(23 : CircuitIx)].state = st)
      ∧ ready.circuits[(23 : CircuitIx)].state = .idle ∧ ready.circuits[(23 : CircuitIx)].members = []
      ∧ (inState .idle).members ≠ [] ∧ (inState .idle).timeout = 0
      ∧ ({ inState .idle with timeout := 255 }).timeout ≠ 0
      ∧ (ready.withQueue (List.replicate 31 (.cueOpen 0))).walker.queue.length < 32
      ∧ ¬ (ready.withQueue (List.replicate 32 (.cueOpen 0))).walker.queue.length < 32 := by decide +kernel

/-- READY without and with the late marker, STANDBY and LATE with and without GO without answer, IDLE and
GO. -/
theorem witness_GoRule :
    (∀ late ∈ [true, false], let x := { inState .ready with late := late }
      (circuitAt 0 x).circuits[(0 : CircuitIx)] = x ∧ x.state = .ready ∧ x.late = late)
      ∧ (∀ st ∈ [CircuitState.standby, .late], ∀ go ∈ [true, false],
          let x := { inState st with goUnanswered := go }
          (circuitAt 0 x).circuits[(0 : CircuitIx)] = x ∧ x.state = st ∧ x.goUnanswered = go)
      ∧ ∀ st ∈ [CircuitState.idle, .go], (circuitAt 0 (inState st)).circuits[(0 : CircuitIx)].state = st := by
  decide +kernel

/-- A circuit in each state. -/
theorem witness_CancelRule :
    ∀ st ∈ [CircuitState.idle, .standby, .ready, .late, .go],
      (circuitAt 0 (inState st)).circuits[(0 : CircuitIx)].state = st := by decide +kernel

/-- Every request of a desk, the oldest of its port; the circuits 23 and 24 from the controller; and every
sub-request of CUE NEXT with the two next to them. -/
theorem witness_CueRequestsHandedOver :
    (∀ r ∈ [DeskRequest.standby 23, .go 0, .cancel 4, .goNext, .standbyNext, .back, .skip],
      ∀ wanted ∈ [true, false],
      (asked [.answer 3 .a, .desk 3 41 wanted r, .desk 3 42 true .skip]).firstDesk 3 = some (41, wanted, r))
      ∧ (∀ code ∈ [(0x42 : Byte), 0x43, 0x44, 0x45], ∀ ps : List Byte, ∀ l ∈ anyLock,
          (given code ps l ready).canRun code.toNat anyLock (the code ps) [])
      ∧ (byteAt [23] 0).toNat = (23 : CircuitIx).val ∧ 24 ≤ (byteAt [24] 0).toNat
      ∧ ∀ n ∈ [(3 : Byte), 4, 5, 6, 7, 8], (byteAt [n] 0).toNat = n.toNat :=
  ⟨by decide, fun code _ ps l h => runs code ps l ready anyLock rfl h, by decide, by decide, by decide⟩

/-- An answer in transit, with a lost mark of its port before it, behind it and nowhere; STANDBY and LATE circuits that it completes under ALL and ANY, one that it leaves
waiting, and one it does not reach. -/
theorem witness_AnswerTaken :
    (∀ before ∈ [[], [Request.lostMark 4 true], [.lostMark 3 true, .answer 4 .a]],
      ∀ after ∈ [[], [Request.lostMark 4 true]],
      (asked (before ++ .answer 4 .b :: after)).requests = before ++ .answer 4 .b :: after
        ∧ Request.answer 4 .b ∉ before)
      ∧ (∀ b, Request.lostMark 4 b ∉ [Request.lostMark 3 true, .answer 4 .a])
      ∧ (∀ st ∈ [CircuitState.standby, .late], ∀ rule ∈ [AnswerRule.all, .any],
          let x := { inState st with rule := rule }
          let s := (asked [.answer 4 .b]).setCircuit 0 x
          s.circuits[(0 : CircuitIx)] = x ∧ x.state = st ∧ x.rule = rule
            ∧ ∃ m ∈ x.members, m.port = 4 ∧ m.lamp = .b ∧ m.lost = false)
      ∧ (let x := { inState .standby with members := [⟨4, .b, false, true⟩] }
         ¬ ∃ m ∈ x.members, m.port = 4 ∧ m.lamp = .b ∧ m.lost = false)
      ∧ (∃ m ∈ circuit59.members, m.port = 4 ∧ m.lamp = .a ∧ m.lost = false) ∧ circuit59.rule = .all
      ∧ ∃ m ∈ circuit59.members, m.answered = false ∧ m.port ≠ 4 := by decide +kernel

/-- A deadline that the show clock has reached, of a STANDBY circuit, and of a GO circuit with and without a
pending standby. -/
theorem witness_CueTimersExpire :
    let d : Deadline := ⟨5, true⟩
    d.reached = true ∧ (let x := { inState .standby with standbyDeadline := some d }
      (circuitAt 9 x).circuits[(9 : CircuitIx)] = x ∧ x.state = .standby ∧ x.standbyDeadline = some d)
      ∧ ∀ b ∈ [true, false], let x := { inState .go with holdDeadline := some d, pending := b }
          (circuitAt 9 x).circuits[(9 : CircuitIx)] = x ∧ x.state = .go ∧ x.holdDeadline = some d
            ∧ x.pending = b := by decide +kernel

/-- News of a port going DOWN and coming UP, behind an answer of the port; the requests of a soft reset, and the
abort as its last. -/
theorem witness_LostMarksAndAborts :
    (∀ b ∈ [true, false], let before := [Request.answer 15 .a, .lostMark 3 true]
      (asked (before ++ .lostMark 15 b :: [.lostMark 15 true])).requests
          = before ++ .lostMark 15 b :: [.lostMark 15 true]
        ∧ ∀ b, Request.lostMark 15 b ∉ before)
      ∧ (let s := asked [.walkerReset, .circuitAbort]
         Request.circuitAbort ∈ s.requests ∧ ∃ r ∈ s.requests.erase .circuitAbort, r.ofReset = true)
      ∧ (resetting [.circuitAbort, .answer 3 .a]).lastOfReset .circuitAbort 3 (the 0x02 []) [] := by
  unfold State.lastOfReset
  decide +kernel

/-- The cursor at the end of the list; an entry whose GO checks all pass (6.8); and one whose circuit 3,
IDLE, is the lowest that refuses. -/
theorem witness_GoNextRule :
    ready.cueList.entries[ready.cueList.cursor]? = none
      ∧ (show68.cueList.entries[show68.cueList.cursor]? = some ⟨1430, 0x80, true⟩
        ∧ ∀ c : CircuitIx, (0x80 : BitVec 24).getLsbD c.val = true → show68.circuits[c].goCheck = .done)
      ∧ (let s := show68.setCueList { show68.cueList with cursor := 3 }
         s.cueList.entries[s.cueList.cursor]? = some ⟨1440, 0x1008, true⟩
          ∧ (0x1008 : BitVec 24).getLsbD (3 : CircuitIx).val = true
          ∧ s.circuits[(3 : CircuitIx)].goCheck ≠ .done
          ∧ ∀ b : CircuitIx, b < 3 → (0x1008 : BitVec 24).getLsbD b.val = true →
              s.circuits[b].goCheck = .done) := by decide +kernel

/-- The end of the list; an entry with a circuit that takes the standby, and one with none; the cursor at 0,
between and at the length. -/
theorem witness_ListMovesRule :
    ready.cueList.entries[ready.cueList.cursor]? = none ∧ ready.cueList.cursor = 0
      ∧ ready.cueList.entries.length ≤ ready.cueList.cursor
      ∧ show68.cueList.entries[show68.cueList.cursor]? = some ⟨1430, 0x80, true⟩
      ∧ (0x80 : BitVec 24).getLsbD (7 : CircuitIx).val = true
      ∧ show68.circuits[(7 : CircuitIx)].state ≠ .idle
      ∧ (let s := ready.setCueList show68.cueList
         ∀ c : CircuitIx, (0x80 : BitVec 24).getLsbD c.val = true →
          s.circuits[c].state = .idle ∧ s.circuits[c].members = [])
      ∧ 0 < show68.cueList.cursor ∧ show68.cueList.cursor < show68.cueList.entries.length := by
  decide +kernel

/-- Lengths and positions at, above and below those of a list of four entries with its cursor at 2. -/
theorem witness_CueListTruncatedAndCursorSet :
    (∀ ps : List Byte, (given 0x47 ps .unlocked show68).canRun 0x47 [.unlocked] (the 0x47 ps) [])
      ∧ (∀ (ps : List Byte), ∀ l ∈ [LockState.locked, .frozen],
          (given 0x47 ps l show68).canRun 0x47 [.locked, .frozen] (the 0x47 ps) [])
      ∧ (∀ ps : List Byte, ∀ l ∈ anyLock, (given 0x48 ps l show68).canRun 0x48 anyLock (the 0x48 ps) [])
      ∧ ∀ n ∈ [(0 : Byte), 1, 2, 4, 5], (byteAt [n] 0).toNat = n.toNat
          ∧ (given 0x47 [n] .unlocked show68).cueList.entries.length = 4
          ∧ (given 0x47 [n] .unlocked show68).cueList.cursor = 2 :=
  ⟨fun ps => runs 0x47 ps _ show68 _ rfl (by decide), fun ps l h => runs 0x47 ps l show68 _ rfl h,
    fun ps l h => runs 0x48 ps l show68 _ rfl h, by decide +kernel⟩

/-- Indices below and at the length, at 127 and over it; the parts 0, 1 and 2. -/
theorem witness_CueListRead :
    (∀ code ∈ [(0x49 : Byte), 0x4A], ∀ ps : List Byte, ∀ l ∈ anyLock,
      (given code ps l show68).canRun code.toNat anyLock (the code ps) [])
      ∧ (∀ n ∈ [(0 : Byte), 1, 2, 3, 4, 127, 128], (byteAt [n] 0).toNat = n.toNat)
      ∧ (given 0x49 [3] .frozen show68).cueList.entries[3]? = some ⟨1440, 0x1008, true⟩
      ∧ (given 0x49 [4] .frozen show68).cueList.entries.length ≤ 4 :=
  ⟨fun code _ ps l h => runs code ps l show68 anyLock rfl h, by decide, rfl, by decide⟩

/-- A replacement, an append, and each fault of the parameters. -/
theorem witness_CueListWritten :
    (∀ ps : List Byte, (given 0x46 ps .unlocked show68).canRun 0x46 [.unlocked] (the 0x46 ps) [])
      ∧ (∀ ps : List Byte, ∀ l ∈ [LockState.locked, .frozen],
          (given 0x46 ps l show68).canRun 0x46 [.locked, .frozen] (the 0x46 ps) [])
      ∧ (∀ ps ∈ [[(3 : Byte), 0x27, 0x0F, 0, 0, 1, 1], [4, 0x27, 0x0F, 0x80, 0, 0, 0]],
          (byteAt ps 0).toNat ≤ 4 ∧ (wordAt ps 1).toNat = (9999 : CueNumber).val ∧ word24At ps 3 ≠ 0
            ∧ (byteAt ps 6).toNat ≤ 1)
      ∧ 4 < (byteAt [5] 0).toNat ∧ 127 < (byteAt [128] 0).toNat
      ∧ 9999 < (wordAt [0, 0x27, 0x10] 1).toNat ∧ word24At [0, 0, 0, 0, 0, 0] 3 = 0
      ∧ 1 < (byteAt [0, 0, 0, 0, 0, 0, 2] 6).toNat :=
  ⟨fun ps => runs 0x46 ps _ show68 _ rfl (by decide), fun ps l h => runs 0x46 ps l show68 _ rfl h, by decide, by decide, by decide, by decide, by decide,
    by decide⟩

/-! ### Witnesses: commands -/

/-- The commands run in every state of the lock; indices and parts at and beyond their ends; a LIVE slot and
one that is not; a circuit with an outcome and deadlines and one without. -/
theorem witness_ReadingCommands :
    (∀ code ∈ [(0x01 : Byte), 0x11, 0x25, 0x41], ∀ ps : List Byte, ∀ l ∈ anyLock,
      (given code ps l (show19 0)).canRun code.toNat anyLock (the code ps) [])
      ∧ (byteAt [15, 3, 11] 0).toNat = (15 : Port).val ∧ (byteAt [15, 3, 11] 1).toNat = 3
      ∧ (byteAt [15, 3, 11] 2).toNat = (11 : Channel).val ∧ 15 < (byteAt [16] 0).toNat
      ∧ 3 < (byteAt [0, 4] 1).toNat ∧ 11 < (byteAt [0, 3, 12] 2).toNat
      ∧ (show19 0).xps.slots[(1 : SlotIx)] = .live ⟨.port 0, .port 5, .cueCall, 256, [.cue 3], true, 1900⟩
      ∧ (show19 0).xps.slots[(63 : SlotIx)] = .lockedOut ∧ (byteAt [63] 0).toNat = (63 : SlotIx).val
      ∧ 63 < (byteAt [64] 0).toNat ∧ 2 < (byteAt [0, 3] 1).toNat
      ∧ (byteAt [23] 0).toNat = (23 : CircuitIx).val ∧ 23 < (byteAt [24] 0).toNat
      ∧ circuit59.members.length ≤ 4
      ∧ (∀ n ∈ [(0 : Byte), 1, 2, 9, 10, 11], (byteAt [0, n] 1).toNat = n.toNat) :=
  ⟨fun code _ ps l h => runs code ps l (show19 0) anyLock rfl h, by decide +kernel⟩

/-- Ranges that end at the last slot and beyond it; a slot in each of its states, and the last FREE one. -/
theorem witness_SlotEnableAndRetire :
    (∀ code ∈ [(0x20 : Byte), 0x21], ∀ (ps : List Byte) (x : CrosspointSet),
      (given code ps .unlocked (ready.setXps x)).canRun code.toNat [.unlocked] (the code ps) [])
      ∧ (byteAt [63, 1] 0).toNat + (byteAt [63, 1] 1).toNat = 64
      ∧ 64 < (byteAt [63, 2] 0).toNat + (byteAt [63, 2] 1).toNat ∧ (byteAt [0, 64] 1).toNat ≤ 64
      ∧ (byteAt [0, 0] 1).toNat = 0 ∧ 64 < (byteAt [0, 65] 1).toNat ∧ 63 < (byteAt [64] 0).toNat
      ∧ (∀ v ∈ [Slot.lockedOut, .free, .retired, .live (from' 2 .talk [.key 1 1, .cue 2] 100)],
          ∀ w ∈ [Slot.free, .retired], (setOf fun i => if i = 63 then v else w).slots[(63 : SlotIx)] = v)
      ∧ ((setOf fun i => if i = 63 then .retired else .lockedOut).slots.toList.countP fun v => v == .free) = 0
      ∧ ((setOf fun i => if i = 63 then .retired else .free).slots.toList.countP fun v => v == .free) ≠ 0 := by
  refine ⟨fun code _ ps x => runs code ps _ (ready.setXps x) _ rfl (by decide), by decide +kernel⟩

/-- Operands of each kind for the controller's commands; gains at 512 and above; slots with CONTROLLER
alone, with it among others, without it, and not LIVE. -/
theorem witness_ControllerConnections :
    (∀ code ∈ [(0x22 : Byte), 0x23], ∀ ps : List Byte, ∀ l ∈ [LockState.unlocked, .locked],
      (given code ps l (ready.setXps full)).canRun code.toNat [.unlocked, .locked] (the code ps) [])
      ∧ (∀ ps : List Byte, ∀ l ∈ anyLock,
          (given 0x24 ps l (ready.setXps full)).canRun 0x24 anyLock (the 0x24 ps) [])
      ∧ (∀ ps ∈ [[(0x03 : Byte), 0x8B, 1, 0x02, 0x00, 1], [0x6F, 0x0F, 4, 0x02, 0x01, 0]],
          (Endpoint.decode (byteAt ps 0)).isSome ∧ (Endpoint.decode (byteAt ps 1)).isSome
            ∧ (SlotClass.decode (byteAt ps 2).toNat).isSome)
      ∧ (wordAt [0, 0, 0, 0x02, 0x00] 3).toNat ≤ 512 ∧ 512 < (wordAt [0, 0, 0, 0x02, 0x01] 3).toNat
      ∧ Endpoint.decode 0x80 = some (.channel 0) ∧ Endpoint.decode 0x8B = some (.channel 11)
      ∧ Endpoint.decode 0x10 = none ∧ Endpoint.decode 0x8C = none ∧ SlotClass.decode 3 = none
      ∧ full.slots[(2 : SlotIx)] = .live (from' 2 .talk [.controller false] 100)
      ∧ full.slots[(7 : SlotIx)] = .live (from' 7 .talk [.key 1 1, .key 4 0] 100)
      ∧ full.slots[(63 : SlotIx)] = .retired
      ∧ ∃ o ∈ [Owner.key 1 0, .controller true], o.isController = true :=
  ⟨fun code _ ps l h => runs code ps l (ready.setXps full) _ rfl h,
    fun ps l h => runs 0x24 ps l (ready.setXps full) _ rfl h, by decide +kernel⟩

/-- A state with a job, a turn and an execution. -/
def porting (j : Job) (turn : PortTurn) (e : Execution) : State :=
  let s := working j
  (s.setDirectory { s.directory with turn := turn }).setManagement
    { ready.management with commands := [the 0x32 [0x02, 0x00]], execution := e }

/-- Table RAM in its canonical form; bases and spans at the edges of R46; the port free, kept for a waiting walk and in use; a place with each
kind of content; a granted access. -/
theorem witness_TablePortCommands :
    ram36.wf ∧ ((512 : Nat) ∈ [64, 128, 256, 512] ∧ 65 ∉ [64, 128, 256, 512] ∧ 512 + 512 ≤ 1024 ∧ 512 % 512 = 0
      ∧ 1024 < 576 + 512 ∧ 448 + 512 ≤ 1024 ∧ 448 % 512 ≠ 0)
      ∧ (∀ ps : List Byte, (given 0x30 ps .unlocked ready).canRun 0x30 [.unlocked] (the 0x30 ps) [])
      ∧ (∀ ps : List Byte, ∀ l ∈ [LockState.unlocked, .locked],
          (given 0x33 ps l ready).canRun 0x33 [.unlocked, .locked] (the 0x33 ps) [])
      ∧ (∀ ps : List Byte, ∀ l ∈ anyLock, (given 0x32 ps l ready).canRun 0x32 anyLock (the 0x32 ps) [])
      ∧ (wordAt [2, 0, 2, 0] 0).toNat = (Region.span512 1).base
      ∧ (wordAt [2, 0, 2, 0] 2).toNat = (Region.span512 1).span
      ∧ Region.check (wordAt [0x02, 0x58, 0, 0x40] 0).toNat (wordAt [0x02, 0x58, 0, 0x40] 2).toNat = .error .align
      ∧ (byteAt [7] 0).toNat = (7 : Scene).val ∧ 7 < (byteAt [8] 0).toNat
      ∧ (wordAt [3, 255] 0).toNat = (1023 : Place).val ∧ 1023 < (wordAt [4, 0] 0).toNat
      ∧ (∀ u ∈ [[], [((512 : Place), Upset.oneBit)], [(512, .uncorrectable)]],
          let x := (ram36.upsetAll u).read 512
          x.poisoned = false ∧ x.ecc = (if u = [] then .clean else if u = [(512, .oneBit)] then .oneBit
            else .uncorrectable))
      ∧ ((ram36.write 512 ⟨Record.initial, .clean, true⟩).read 512).poisoned = true
      ∧ (let s := porting .idle .walker (.access (.readRecord 512))
         s.management.execution = .access (.readRecord 512)
          ∧ s.management.commands = the 0x32 [0x02, 0x00] :: [] ∧ s.directory.initialising = false
          ∧ s.walker.job.walk? = none ∧ s.walker.job.isWaiting = false)
      ∧ (let s := porting (.waiting (.cue 0) false []) .walker (.access (.readRecord 512))
         s.management.execution = .access (.readRecord 512)
          ∧ s.management.commands = the 0x32 [0x02, 0x00] :: [] ∧ s.directory.initialising = false
          ∧ s.directory.turn = .walker ∧ s.walker.job.isWaiting = true)
      ∧ (porting (.walking (walkOf (.cue 0) false (reading36 (.cue 0)) .read) []) .either
          .none).walker.job.walk? ≠ none :=
  ⟨by decide, by decide, fun ps => runs 0x30 ps _ ready _ rfl (by decide),
    fun ps l h => runs 0x33 ps l ready _ rfl h, fun ps l h => runs 0x32 ps l ready _ rfl h,
    by decide +kernel⟩

/-- A load with so many records to come, so many written, and a record that waits. -/
def loading (r : Record) (written : Nat) (reached : Bool) : State :=
  porting .idle .either (.load ⟨600, 2, 1 - written, written, [r], false, ⟨5, reached⟩⟩)

/-- Loads at the edges of their range; a load whose deadline is reached and not, expecting a record and not;
records that fail the checks, that are not VALID, and that are stored, one of them too loud. -/
theorem witness_Loads :
    (∀ ps : List Byte, (given 0x31 ps .unlocked ready).canRun 0x31 [.unlocked] (the 0x31 ps) [])
      ∧ (wordAt [3, 255, 1] 0).toNat + (byteAt [3, 255, 1] 2).toNat = 1024
      ∧ 1024 < (wordAt [3, 255, 2] 0).toNat + (byteAt [3, 255, 2] 2).toNat
      ∧ 1023 < (wordAt [4, 0, 1] 0).toNat ∧ 64 < (byteAt [0, 0, 65] 2).toNat
      ∧ (∀ r ∈ [Record.initial, (record 0xA0 0x1A 0x03 0x03 0x82 513 67).content,
            (record 0xA0 0x1A 0x03 0x03 0x82 512 256).content],
          ∀ n ∈ [0, 1], ∀ b ∈ [true, false], let s := loading r n b
          s.management.execution = .load ⟨600, 2, 1 - n, n, [r], false, ⟨5, b⟩⟩
            ∧ s.management.commands = the 0x32 [0x02, 0x00] :: [] ∧ s.directory.initialising = false
            ∧ s.walker.job.walk? = none)
      ∧ Record.initial.valid = false
      ∧ (let r := (record 0xA0 0x1A 0x03 0x03 0x82 513 67).content
         r.valid = true ∧ r.accepted 256 = true ∧ 512 < r.gain.toNat)
      ∧ (let r := (record 0xA0 0x1A 0x03 0x03 0x82 512 256).content
         r.valid = true ∧ r.accepted 256 = false ∧ r.gain.toNat = 512) :=
  ⟨fun ps => runs 0x31 ps _ ready _ rfl (by decide), by decide +kernel⟩

/-- A command that the lock refuses, the lock commands where it lets them, and a code outside the
catalogue; and a step of a FROZEN machine. -/
theorem witness_ShowLock :
    (∀ code ∈ [(0x31 : Byte), 0x30, 0x46, 0x47, 0x40, 0x10, 0x12, 0x20, 0x21],
      ∀ l ∈ [LockState.locked, .frozen],
        (given code [] l ready).canRun code.toNat [.locked, .frozen] (the code []) [])
      ∧ (∀ code ∈ [(0x33 : Byte), 0x22, 0x23, 0x02, 0x60, 0x61],
          (given code [] .frozen ready).canRun code.toNat [.frozen] (the code []) [])
      ∧ (∀ code ∈ [(0x60 : Byte), 0x61], ∀ l ∈ [LockState.unlocked, .locked],
          (given code [] l ready).canRun code.toNat [.unlocked, .locked] (the code []) [])
      ∧ (∀ code ∈ [(0x62 : Byte), 0x00, 0x03, 0x26, 0x4B, 0xFF], ∀ l ∈ anyLock,
          (given code [] l ready).canRun code.toNat anyLock (the code []) [])
      ∧ (let s := (given 0x31 [] .frozen ready).setPending [.writeRecords]
         s.pending = .writeRecords :: [] ∧ (∀ straps, Instr.writeRecords ≠ .pinReset straps)
          ∧ s.management.lock = .frozen ∧ s.lockSound ∧ s.directory.ram.wf ∧ ∃ t, step s = .next t) :=
  ⟨fun code _ l h => runs code [] l ready _ rfl h, fun code _ => runs code [] _ ready _ rfl (by decide),
    fun code _ l h => runs code [] l ready _ rfl h, fun code _ l h => runs code [] l ready _ rfl h,
    rfl, nofun, rfl, ⟨fun _ => ⟨rfl, nofun, nofun⟩, fun _ => nofun⟩,
    ⟨List.Pairwise.nil, nofun⟩, _, rfl⟩

/-- A port that keeps its kind, and one that changes it while it is DOWN, in training and UP; settings at
their tops and above; an IDLE circuit and one that is not; RETRY of a key in each state with 31 and with 32
events queued; parameters that are refused, and members of a known lamp, an unknown one and twice. -/
theorem witness_SetupCommands :
    (∀ code ∈ [(0x10 : Byte), 0x12, 0x40], ∀ (ps : List Byte) (s : State),
      s.directory.initialising = false →
        (given code ps .unlocked s).canRun code.toNat [.unlocked] (the code ps) [])
      ∧ (∀ ps : List Byte, ∀ l ∈ anyLock, ∀ s : State, s.directory.initialising = false →
          (given 0x34 ps l s).canRun 0x34 anyLock (the 0x34 ps) [])
      ∧ (byteAt [0x1F] 0).toNat = (15 : Port).val + 16 * PortKind.beltpack.code
      ∧ (∀ l ∈ [LinkState.down, .training, .up], let x := { upPort with kind := .desk, link := l }
          (portAt 15 x).ports[(15 : Port)] = x ∧ x.kind ≠ .beltpack)
      ∧ (portAt 15 upPort).ports[(15 : Port)].kind = .beltpack
      ∧ (byteAt [23, 0x84, 0x94, 0, 0, 0, 10, 0, 1] 0).toNat = (23 : CircuitIx).val
      ∧ (membersDecode [23, 0x84, 0x94, 0, 0, 0, 10, 0, 1]).isSome
      ∧ (byteAt [23, 0x84, 0x94, 0, 0, 0, 10, 0, 1] 5).toNat = AnswerRule.all.code
      ∧ ready.circuits[(23 : CircuitIx)].state = .idle
      ∧ (circuitAt 23 (inState .late)).circuits[(23 : CircuitIx)].state ≠ .idle
      ∧ (byteAt [15, 4] 0).toNat = (15 : Port).val ∧ (byteAt [15, 4] 1).toNat = (4 : Key).val
      ∧ 15 < (byteAt [16, 0] 0).toNat ∧ 4 < (byteAt [0, 5] 1).toNat
      ∧ 80 ≤ (byteAt [0x5F] 0).toNat ∧ 23 < (byteAt [24] 0).toNat
      ∧ 1 < (byteAt [23, 0, 0, 0, 0, 2] 5).toNat ∧ 1 < (byteAt [23, 0, 0, 0, 0, 1, 0, 0, 2] 8).toNat
      ∧ membersDecode [23, 0x84, 0x84] = none ∧ membersDecode [23, 0xA4] = none
      ∧ ∀ st ∈ [KeyState.off, .held, .latched, .missed, .refused], ∀ n ∈ [31, 32],
          let s := (ready.setEntry 15 4 (entryIn st .auto false)).withQueue
            (List.replicate n (KeyEvent.cueOpen 0))
          s.directory.initialising = false ∧ (s.entry 15 4).state = st ∧ s.walker.queue.length = n :=
  ⟨fun code _ ps s h => runs code ps _ s _ h (by decide), fun ps l hl s h => runs 0x34 ps l s _ h hl,
    by decide +kernel⟩

/-- A soft reset with and without a walk in flight; a port's request with another outstanding and alone,
the port being UP and not. -/
theorem witness_SoftReset :
    (∀ l ∈ [LockState.unlocked, .locked], ∀ j : Job,
      (given 0x02 [] l (working j)).canRun 0x02 [.unlocked, .locked] (the 0x02 []) [])
      ∧ (working .idle).walker.job.walk? = none
      ∧ (let w := walkOf (.cue 0) false (reading36 (.cue 0)) .read
         (working (.walking w [])).walker.job.walk? = some w)
      ∧ (let rs := [Request.portResync 3, .portResync 4]
         Request.portResync 3 ∈ (asked rs).requests
          ∧ ∃ r ∈ (asked rs).requests.erase (.portResync 3), r.ofReset = true)
      ∧ (let s := ((portAt 3 upPort).setRequests [.portResync 3]).setManagement
            { ready.management with commands := [the 0x02 []], execution := .softReset 3 }
         Request.portResync 3 ∈ s.requests ∧ (∀ r ∈ s.requests.erase (.portResync 3), r.ofReset = false)
          ∧ s.management.execution = .softReset 3 ∧ s.management.commands = the 0x02 [] :: []
          ∧ s.ports[(3 : Port)].link = .up ∧ ready.ports[(3 : Port)].link ≠ .up)
      ∧ (∀ r ∈ [Request.walkerReset, .circuitAbort],
          (resetting [r, .busyLamp 6 1]).lastOfReset r 3 (the 0x02 []) []) :=
  ⟨fun l h j => runs 0x02 [] l (working j) _ rfl h, by unfold State.lastOfReset; decide +kernel⟩

/-- A record of a fault. -/
def noted (k : FaultKind) (n : Nat) : FaultRecord := ⟨k, .port 1, 5, n, false⟩

/-- A MINOR record of a fault at another place. -/
def minor (n : Place) : FaultRecord := ⟨.ramCorrected, .place n, 5, 1, false⟩

/-- A report in transit with a record of its kind and location, counted 254 and 255; a log with room, a full
one with a MINOR record, and a full one without. -/
theorem witness_FaultReports :
    Request.fault .portLost (.port 1) ∈ (asked [.fault .portLost (.port 1)]).requests
      ∧ (∀ n ∈ [254, 255], (noted .portLost n).kind = .portLost ∧ (noted .portLost n).loc = .port 1
          ∧ (noted .portLost n).count = n)
      ∧ (let l := (List.replicate 7 (minor 3)).map id
         (∀ q ∈ l, q.kind ≠ .portLost ∨ q.loc ≠ .port 1) ∧ l.length < 8
          ∧ 8 ≤ (l ++ [minor 4]).length ∧ severe .ramPoisoned = true ∧ severe (minor 3).kind = false
          ∧ severe .ramCorrected = false ∧ l ++ [minor 4] = [] ++ minor 3 :: (l.drop 1 ++ [minor 4]))
      ∧ (∀ q ∈ List.replicate 8 (noted .ramPoisoned 1),
          (q.kind ≠ .portLost ∨ q.loc ≠ .port 1) ∧ severe q.kind = true) := by decide +kernel

/-- The read position at the last record and past it; a log with and without an overflow mark. -/
theorem witness_FaultsReadAndCleared :
    (∀ code ∈ [(0x50 : Byte), 0x51], ∀ l ∈ anyLock, ∀ log : FaultLog,
      (given code [] l (ready.setFaultLog log)).canRun code.toNat anyLock (the code []) [])
      ∧ (let log : FaultLog := ⟨List.replicate 8 (minor 1), 7⟩
         log.records[log.readPos]? = some (minor 1) ∧ log.records.length ≤ ({ log with readPos := 8 }).readPos
          ∧ ¬ ∃ r ∈ log.records, r.overflow = true)
      ∧ ∃ r ∈ [minor 1, { minor 2 with overflow := true }], r.overflow = true :=
  ⟨fun code _ l h log => runs code [] l (ready.setFaultLog log) anyLock rfl h, by decide +kernel⟩

/-! ### Witnesses: what every step keeps -/

/-- The machine right after reset, its RAM initialisation about to end, with crosspoints. -/
def begun : State := (State.reset.setPending [.ramInitialisationEnd]).setXps (crowd 3)

/-- A step from there answers a next state. -/
theorem begun_steps : ∃ t, step begun = .next t := ⟨_, rfl⟩

/-- The same with a load open, its last record waiting; the keys (1, 0) and (1, 1) HELD, and circuit 3 in STANDBY. -/
def owned : State :=
  (((begun.setEntry 1 0 (entryIn .held .auto false)).setEntry 1 1 (entryIn .held .momentary false)).setCircuit 3
    (inState .standby)).setManagement { ready.management with
      commands := [the 0x31 []], execution := .load ⟨1023, 1, 0, 0, [.initial], false, ⟨0, false⟩⟩ }

theorem owned_idle : owned.walker.job = .idle := rfl

theorem owned_none : owned.xps.abandoned = none := rfl

/-- Its one LIVE slot is owned by those three. -/
theorem owned_by (i : SlotIx) (c : Connection) (h : owned.xps.slots[i] = .live c) :
    ∀ o ∈ c.owners, o = .key 1 0 ∨ o = .key 1 1 ∨ o = .cue 3 :=
  of_decide_eq_true (each_live (x := owned.xps)
    (fun _ c => decide (∀ o ∈ c.owners, o = .key 1 0 ∨ o = .key 1 1 ∨ o = .cue 3)) (by decide +kernel) i c h)

theorem witness_owners : owned.OwnersSound where
  keys p k h i c hc ho := by
    have := owned_by i c hc _ ho
    simp only [Owner.key.injEq, reduceCtorEq, or_false] at this
    obtain ⟨rfl, rfl⟩ | ⟨rfl, rfl⟩ := this
    · exact h (.inl (by decide +kernel))
    · exact h (.inl (by decide +kernel))
  circuits x h i c hc ho := by
    have := owned_by i c hc _ ho
    simp only [Owner.cue.injEq, reduceCtorEq, false_or] at this
    subst this
    exact h (.inl (by decide +kernel))
  resetIdle _ := owned_idle
  abandonedReset h := absurd owned_none h
  walkerReset h := absurd h (by decide +kernel)
  circuitAbort h := absurd h (by decide +kernel)
  rowReset p h := absurd h (by revert p; decide +kernel)
  abandonedOwner r h := by rw [owned_none] at h; cases h
  waiting _ _ _ _ _ h := by rw [owned_idle] at h; cases h
  reading _ _ _ _ h := by rw [owned_idle] at h; cases h
  making _ _ _ _ _ _ h := by rw [owned_idle] at h; cases h
  unsuppressed _ _ _ _ h := by rw [owned_idle] at h; cases h
  makingCue _ _ _ _ _ _ h := by rw [owned_idle] at h; cases h

theorem witness_DirectoryAndSlotsStaySound :
    owned.loadSound ∧ owned.OwnersSound ∧ (∃ t, step owned = .next t)
      ∧ begun.directory.ram.wf ∧ begun.gainsSound ∧ begun.xps.sound := by
  refine ⟨fun l h => ?_, witness_owners, ⟨_, rfl⟩, ⟨List.Pairwise.nil, fun _ h => (nomatch h)⟩, ⟨fun _ h => (nomatch h), fun _ h => (nomatch h),
    fun _ h => (nomatch h), fun i c h => ?_⟩, ⟨fun i c h => ?_, distinct_of slotOf (by decide +kernel)⟩⟩
  · cases h
    exact ⟨by decide, by decide⟩
  · exact of_decide_eq_true (each_live (fun _ c => decide (c.gain ≤ Config.gainTop)) (by decide +kernel) i c h)
  · have sound := of_decide_eq_true (each_live (fun _ c => decide (
      ¬ (c.source.isChannel ∧ c.dest.isChannel) ∧ 1 ≤ c.owners.length ∧ c.owners.length ≤ Config.ownerLimit
        ∧ c.owners.Pairwise (fun a b => a.same b = false) ∧ c.pinned = pinnedBy c.owners))
      (by decide +kernel) i c h)
    exact sound

theorem witness_QueuesListsAndLogStaySound :
    begun.queuesSound ∧ begun.faultLog.sound ∧ show68.cueList.sound
      ∧ (∀ l ∈ anyLock, (given 0x31 [] l ready).lockSound) := by
  refine ⟨by unfold State.queuesSound; decide +kernel, by unfold FaultLog.sound; decide +kernel,
    by unfold CueList.sound; decide +kernel, fun l _ => ⟨fun _ => ⟨rfl, nofun, nofun⟩, fun _ => nofun⟩⟩

theorem witness_CircuitsStaySound : ∀ c : CircuitIx, begun.circuits[c].sound := by
  unfold Circuit.sound
  decide +kernel

theorem witness_PortsTrunkAndMixerStaySound :
    (∀ p : Port, begun.ports[p].sound) ∧ begun.trunk.sound ∧ begun.mixer.sound := by
  unfold TrunkPort.sound StationPort.sound MixEngine.sound
  decide +kernel

/-! ### Commands from their bytes to their replies (12.5, 12.6) -/

/-- IDENTIFY of a chip at position 0 in HUNT under LOCAL timing, the lock FROZEN. -/
theorem test_identify :
    replyOf (exec .identify (given 0x01 [] .frozen ready)) =
      some (.done, false, [0x24, 0x16, 1, 0, 0, 0, 0, 0, 0, 0x20]) := by decide +kernel

/-- PORT_SETUP of port 3 as BELTPACK with gate 1024 and master 257, which are clamped to 1023 and 256. -/
theorem test_port_setup_clamps :
    let out := exec .portSetup (given 0x10 [0x13, 0x04, 0x00, 8, 0x01, 0x01, 0, 32, 0, 64] .unlocked ready)
    replyOf out = some (.done, true, List.replicate 10 0)
      ∧ ((next? out).map fun s => (s.ports[(3 : Port)].kind, s.ports[(3 : Port)].gate,
          s.ports[(3 : Port)].floor, s.ports[(3 : Port)].master, s.ports[(3 : Port)].sidetone)) =
        some (.beltpack, 1023, 8, 256, 32) := by decide +kernel

/-- LANE_MAP with bit 0 of P0 and bit 7 of P5: lanes 0 and 47 are OWNED. -/
theorem test_lane_map :
    let out := exec .laneMap (given 0x12 [1, 0, 0, 0, 0, 0x80] .unlocked ready)
    replyOf out = some (.done, false, [0, 2, 0, 0, 0, 0, 0, 0, 0, 0])
      ∧ ((next? out).map fun s => (s.trunk.laneMap[(0 : Lane)], s.trunk.laneMap[(46 : Lane)],
          s.trunk.laneMap[(47 : Lane)])) = some (.owned, .pass, .owned) := by decide +kernel

/-- CUE_CURSOR to 5 in a list of four entries: clamped to 4. -/
theorem test_cue_cursor_clamps :
    replyOf (exec .cueCursor (given 0x48 [5] .locked show68)) =
      some (.done, true, [2, 4, 0, 0, 0, 0, 0, 0, 0, 0]) := by decide +kernel

/-- SLOT_ENABLE of slots 62 and 63, one of which is RETIRED: one slot moves. -/
theorem test_slot_enable :
    replyOf (exec .slotEnable (given 0x20 [62, 2] .unlocked
      (ready.setXps (setOf fun i => if i = 63 then .retired else .lockedOut)))) =
      some (.done, false, [1, 0, 0, 0, 0, 0, 0, 0, 0, 0]) := by decide +kernel

/-- DIRECTORY_SETUP(512, 256) answers the region of reset, 0 and 64. -/
theorem test_directory_setup :
    replyOf (exec .directorySetup (given 0x30 [2, 0, 1, 0] .unlocked ready)) =
      some (.done, false, [0, 0, 0, 64, 0, 0, 0, 0, 0, 0]) := by decide +kernel

/-- CIRCUIT_SETUP with a hold of 0: clamped to 1; the member's port being DOWN, its lost mark is set. -/
theorem test_circuit_setup :
    let out := exec .circuitSetup (given 0x40 [7, 0x94, 0, 0, 0, 1, 10, 0, 0] .unlocked ready)
    replyOf out = some (.done, true, List.replicate 10 0)
      ∧ ((next? out).map fun s => (s.circuits[(7 : CircuitIx)].members, s.circuits[(7 : CircuitIx)].rule,
          s.circuits[(7 : CircuitIx)].hold, s.circuits[(7 : CircuitIx)].goUnanswered)) =
        some ([⟨4, .b, false, true⟩], .any, 1, false) := by decide +kernel

end Sys2Proof.Tests
end

section
/-!
PROOFS, chapter 1. What the operations of the crosspoint set do, each said once: reading a slot after a change,
the three searches of an install (R6, R7, R8), the branches of an install, and which owners the slots list.
-/

namespace Sys2Proof.Machine

/-! ### Slots and their connections -/

theorem Slot.connection?_eq_some {v : Slot} {c : Connection} : v.connection? = some c ↔ v = .live c := by
  cases v <;> simp [Slot.connection?]

theorem CrosspointSet.setSlot_get (x : CrosspointSet) (i j : SlotIx) (v : Slot) :
    (x.setSlot i v).slots[j] = if j = i then v else x.slots[j] := by
  simp only [CrosspointSet.setSlot, Fin.getElem_fin, put_get, Fin.ext_iff, eq_comm]

@[simp] theorem CrosspointSet.setSlot_pointer (x : CrosspointSet) (i : SlotIx) (v : Slot) :
    (x.setSlot i v).pointer = x.pointer := by simp only [CrosspointSet.setSlot]
@[simp] theorem CrosspointSet.setSlot_abandoned (x : CrosspointSet) (i : SlotIx) (v : Slot) :
    (x.setSlot i v).abandoned = x.abandoned := by simp only [CrosspointSet.setSlot]

theorem CrosspointSet.remove_get (x : CrosspointSet) (gone : Owner → Bool) (i : SlotIx) :
    (x.remove gone).slots[i] = x.slots[i].remove gone := by
  simp [CrosspointSet.remove]

@[simp] theorem CrosspointSet.remove_pointer (x : CrosspointSet) (gone : Owner → Bool) :
    (x.remove gone).pointer = x.pointer := by simp only [CrosspointSet.remove]
@[simp] theorem CrosspointSet.remove_abandoned (x : CrosspointSet) (gone : Owner → Bool) :
    (x.remove gone).abandoned = x.abandoned := by simp only [CrosspointSet.remove]

theorem CrosspointSet.mem_live {x : CrosspointSet} {i : SlotIx} {c : Connection} :
    (i, c) ∈ x.live ↔ x.slots[i] = .live c := by
  simp only [CrosspointSet.live, List.mem_filterMap, List.mem_finRange, true_and, Option.map_eq_some_iff,
    Prod.mk.injEq, Slot.connection?_eq_some]
  exact ⟨by rintro ⟨j, d, h, rfl, rfl⟩; exact h, fun h => ⟨i, c, h, rfl, rfl⟩⟩

/-- The LIVE slots stand by rising index. -/
theorem CrosspointSet.live_rising (x : CrosspointSet) : x.live.Pairwise fun a b => a.1 < b.1 := by
  refine List.Pairwise.filterMap _ ?_ (List.pairwise_lt_finRange 64)
  intro i j hij a ha b hb
  obtain ⟨c, -, rfl⟩ := Option.map_eq_some_iff.1 ha
  obtain ⟨d, -, rfl⟩ := Option.map_eq_some_iff.1 hb
  exact hij

theorem Connection.matches_iff {c : Connection} {r : Install} :
    c.matches r = true ↔ c.source = r.source ∧ c.dest = r.dest ∧ c.cls = r.cls := by
  simp [Connection.matches, and_assoc]

/-! ### The slot with the connection of a request (R6) -/

theorem CrosspointSet.matching_some {x : CrosspointSet} {r : Install} {i : SlotIx} {c : Connection}
    (h : x.matching r = some (i, c)) : x.slots[i] = .live c ∧ c.matches r = true :=
  ⟨CrosspointSet.mem_live.1 (List.mem_of_find?_eq_some h), by simpa using List.find?_some h⟩

theorem CrosspointSet.matching_none {x : CrosspointSet} {r : Install} :
    x.matching r = none ↔ ∀ (i : SlotIx) (c : Connection), x.slots[i] = .live c → c.matches r = false := by
  simp only [CrosspointSet.matching, List.find?_eq_none, Prod.forall, CrosspointSet.mem_live,
    Bool.not_eq_true]

/-- In a set without doubles the search finds the one slot with the connection. -/
theorem CrosspointSet.matching_of_live {x : CrosspointSet} (hx : x.distinct) {r : Install} {i : SlotIx}
    {c : Connection} (hc : x.slots[i] = .live c) (hm : c.matches r = true) :
    x.matching r = some (i, c) := by
  cases h : x.matching r with
  | none => exact absurd hm (by rw [CrosspointSet.matching_none.1 h i c hc]; decide)
  | some e =>
    obtain ⟨j, d⟩ := e
    obtain ⟨hd, hn⟩ := CrosspointSet.matching_some h
    obtain ⟨hs, ht, hk⟩ := Connection.matches_iff.1 hm
    obtain ⟨hs', ht', hk'⟩ := Connection.matches_iff.1 hn
    obtain rfl := hx j i d c hd hc (hs'.trans hs.symm) (ht'.trans ht.symm) (hk'.trans hk.symm)
    rw [hc] at hd
    cases hd
    rfl

/-! ### The search for a FREE slot (R7) -/

theorem CrosspointSet.firstFree_eq_some {x : CrosspointSet} {n : Fin 64}
    (hn : x.slots[x.pointer + n] = .free) (hm : ∀ m : Fin 64, m < n → x.slots[x.pointer + m] ≠ .free) :
    x.firstFree = some (x.pointer + n) := by
  unfold CrosspointSet.firstFree CrosspointSet.searchOrder
  rw [List.find?_map, Option.map_eq_some_iff, ← Fin.find?_eq_find?_finRange]
  refine ⟨n, Fin.find?_eq_some_iff.2 ⟨?_, fun k hk => ?_⟩, rfl⟩
  · simpa using hn
  · simpa using hm k hk

theorem CrosspointSet.firstFree_none {x : CrosspointSet} :
    x.firstFree = none ↔ ∀ i : SlotIx, x.slots[i] ≠ .free := by
  unfold CrosspointSet.firstFree CrosspointSet.searchOrder
  simp only [List.find?_eq_none, List.mem_map, List.mem_finRange, true_and, forall_exists_index,
    forall_apply_eq_imp_iff, beq_iff_eq]
  exact ⟨fun h i => by simpa using h (i - x.pointer), fun h i => h _⟩

/-! ### The slot that gives way (R8) -/

theorem CrosspointSet.mem_candidates {x : CrosspointSet} {i : SlotIx} {c : Connection} :
    (i, c) ∈ x.candidates ↔ x.slots[i] = .live c ∧ c.cls = .talk ∧ c.pinned = false := by
  simp [CrosspointSet.candidates, CrosspointSet.mem_live]

/-- One slot gives way before another: it is older, or as old with the lower index (R8). -/
def givesWayBefore (clock : Stamp) (e f : SlotIx × Connection) : Prop :=
  f.2.age clock < e.2.age clock ∨ f.2.age clock = e.2.age clock ∧ e.1 ≤ f.1

theorem oldestOf_none {clock : Stamp} {l : List (SlotIx × Connection)} : oldestOf clock l = none ↔ l = [] := by
  cases l with
  | nil => simp [oldestOf]
  | cons e rest =>
    simp only [oldestOf, reduceCtorEq, iff_false]
    split
    · simp
    · split <;> simp

/-- Of slots by rising index, the one found stands among them and gives way before every other. -/
theorem oldestOf_some {clock : Stamp} {l : List (SlotIx × Connection)} (hl : l.Pairwise fun a b => a.1 < b.1)
    {e : SlotIx × Connection} (h : oldestOf clock l = some e) :
    e ∈ l ∧ ∀ f ∈ l, givesWayBefore clock e f := by
  induction l generalizing e with
  | nil => simp [oldestOf] at h
  | cons a rest ih =>
    obtain ⟨ha, hrest⟩ := List.pairwise_cons.1 hl
    have self : givesWayBefore clock a a := .inr ⟨rfl, le_refl _⟩
    unfold oldestOf at h
    cases ho : oldestOf clock rest with
    | none =>
      obtain rfl := oldestOf_none.1 ho
      simp only [oldestOf, Option.some.injEq] at h
      subst h
      simpa using self
    | some b =>
      obtain ⟨hb, hbest⟩ := ih hrest ho
      simp only [ho] at h
      split at h <;> cases h
      · rename_i hle
        refine ⟨by simp, fun f hf => ?_⟩
        rcases List.mem_cons.1 hf with rfl | hf
        · exact self
        · rcases Nat.lt_or_ge (f.2.age clock) (a.2.age clock) with hlt | hge
          · exact .inl hlt
          · have := hbest f hf
            unfold givesWayBefore at this
            exact .inr ⟨by omega, le_of_lt (ha f hf)⟩
      · rename_i hle
        refine ⟨by simp [hb], fun f hf => ?_⟩
        rcases List.mem_cons.1 hf with rfl | hf
        · exact .inl (by omega)
        · exact hbest f hf

/-- The slot that gives way before every other candidate is the one found. -/
theorem CrosspointSet.oldest_candidate {x : CrosspointSet} {clock : Stamp} {i : SlotIx} {c : Connection}
    (hc : (i, c) ∈ x.candidates) (hbest : ∀ f ∈ x.candidates, givesWayBefore clock (i, c) f) :
    oldestOf clock x.candidates = some (i, c) := by
  cases h : oldestOf clock x.candidates with
  | none => rw [oldestOf_none.1 h] at hc; simp at hc
  | some e =>
    obtain ⟨he, hebest⟩ := oldestOf_some (x.live_rising.filter _) h
    have h1 := hbest e he
    have h2 := hebest (i, c) hc
    unfold givesWayBefore at h1 h2
    obtain ⟨j, d⟩ := e
    obtain rfl : i = j := by
      rcases h1 with h1 | ⟨_, h1⟩ <;> rcases h2 with h2 | ⟨_, h2⟩
      · omega
      · omega
      · omega
      · exact le_antisymm h1 h2
    have hd := (CrosspointSet.mem_candidates.1 he).1
    rw [(CrosspointSet.mem_candidates.1 hc).1] at hd
    cases hd
    rfl

/-! ### The branches of an install (R3, R6 to R9) -/

/-- An install is refused from channel to channel; otherwise it joins the slot with its connection, takes the
first FREE slot, evicts the oldest candidate, or finds no slot. -/
theorem State.install_cases (r : Install) (s : State) :
    (r.source.isChannel = true ∧ r.dest.isChannel = true ∧ s.install r = (s, .illegal))
    ∨ ((r.source.isChannel && r.dest.isChannel) = false ∧
      ((∃ i c, s.xps.matching r = some (i, c) ∧ s.install r = s.installJoin r i c)
      ∨ s.xps.matching r = none ∧
        ((∃ i, s.xps.firstFree = some i ∧ s.install r = s.installFree r i)
        ∨ s.xps.firstFree = none ∧
          ((∃ i c, r.cls.calls = true ∧ oldestOf s.trunk.clock s.xps.candidates = some (i, c)
              ∧ s.install r = s.installEvict r i c)
          ∨ (r.cls.calls = true → oldestOf s.trunk.clock s.xps.candidates = none)
              ∧ s.install r = (s, .noSlot))))) := by
  unfold State.install
  cases hch : r.source.isChannel && r.dest.isChannel with
  | true => exact .inl ⟨by simp_all, by simp_all, rfl⟩
  | false =>
    refine .inr ⟨rfl, ?_⟩
    cases hm : s.xps.matching r with
    | some e => exact .inl ⟨e.1, e.2, rfl, rfl⟩
    | none =>
      refine .inr ⟨rfl, ?_⟩
      cases hf : s.xps.firstFree with
      | some i => exact .inl ⟨i, rfl, rfl⟩
      | none =>
        refine .inr ⟨rfl, ?_⟩
        cases hk : r.cls.calls with
        | false => exact .inr ⟨by simp, rfl⟩
        | true =>
          cases ho : oldestOf s.trunk.clock s.xps.candidates with
          | some e => exact .inl ⟨e.1, e.2, rfl, rfl, by simp [ho]⟩
          | none => exact .inr ⟨fun _ => rfl, by simp [ho]⟩

/-- A request that joins a slot (R4, R6): its owner is there, four owners are, or it is the last of them now. -/
theorem State.installJoin_cases (r : Install) (i : SlotIx) (c : Connection) (s : State) :
    ((∃ o ∈ c.owners, o.same r.owner = true) ∧ s.installJoin r i c = (s, .alreadyOwner i))
    ∨ ((∀ o ∈ c.owners, o.same r.owner = false) ∧ 4 ≤ c.owners.length
        ∧ s.installJoin r i c = (s, .fullOwners i))
    ∨ ((∀ o ∈ c.owners, o.same r.owner = false) ∧ c.owners.length < 4
        ∧ s.installJoin r i c = (s.setXps (s.xps.setSlot i (.live { c with
            owners := c.owners ++ [r.owner], pinned := pinnedBy (c.owners ++ [r.owner]) })), .merged i)) := by
  unfold State.installJoin
  by_cases ho : ∃ o ∈ c.owners, o.same r.owner = true
  · exact .inl ⟨ho, if_pos (by simpa using ho)⟩
  · have hn : ∀ o ∈ c.owners, o.same r.owner = false := by simpa using ho
    right
    rw [if_neg (by simpa using hn)]
    by_cases hl : 4 ≤ c.owners.length
    · exact .inl ⟨hn, hl, if_pos hl⟩
    · exact .inr ⟨hn, by omega, if_neg hl⟩

theorem State.installFree_result (r : Install) (i : SlotIx) (s : State) :
    (s.installFree r i).2 = .new i none := rfl

theorem State.installFree_xps (r : Install) (i : SlotIx) (s : State) : (s.installFree r i).1.xps =
    { s.xps.setSlot i (.live (r.connection s.trunk.clock)) with pointer := i + 1 } := by
  unfold State.installFree
  dsimp only
  split <;> simp

theorem State.installEvict_result (r : Install) (i : SlotIx) (c : Connection) (s : State) :
    (s.installEvict r i c).2 = .new i (some i) := rfl

theorem State.installEvict_xps (r : Install) (i : SlotIx) (c : Connection) (s : State) :
    (s.installEvict r i c).1.xps = s.xps.setSlot i (.live (r.connection s.trunk.clock)) := by
  simp [State.installEvict]

/-- What an install does to the crosspoint set: nothing, one more owner of the slot with its connection, or its
connection in a slot, no other slot having it. -/
theorem State.install_xps (r : Install) (s : State) :
    (s.install r).1.xps = s.xps
    ∨ (∃ i c, s.xps.slots[i] = .live c ∧ c.matches r = true ∧ (∀ o ∈ c.owners, o.same r.owner = false)
        ∧ c.owners.length < 4 ∧ (s.install r).1.xps = s.xps.setSlot i (.live { c with
            owners := c.owners ++ [r.owner], pinned := pinnedBy (c.owners ++ [r.owner]) }))
    ∨ (r.source.isChannel && r.dest.isChannel) = false ∧ s.xps.matching r = none ∧ ∃ i p,
        (s.install r).1.xps = { s.xps.setSlot i (.live (r.connection s.trunk.clock)) with pointer := p } := by
  rcases s.install_cases r with ⟨-, -, h⟩ | ⟨hch, ⟨i, c, hm, h⟩ | ⟨hm, ⟨i, -, h⟩ | ⟨-, ⟨i, c, -, -, h⟩ | ⟨-, h⟩⟩⟩⟩
  · exact .inl (by rw [h])
  · obtain ⟨hc, hr⟩ := CrosspointSet.matching_some hm
    rcases s.installJoin_cases r i c with ⟨-, e⟩ | ⟨-, -, e⟩ | ⟨ho, hl, e⟩
    · exact .inl (by rw [h, e])
    · exact .inl (by rw [h, e])
    · exact .inr (.inl ⟨i, c, hc, hr, ho, hl, by rw [h, e]; rfl⟩)
  · exact .inr (.inr ⟨hch, hm, i, i + 1, by rw [h, State.installFree_xps]⟩)
  · exact .inr (.inr ⟨hch, hm, i, s.xps.pointer, by rw [h, State.installEvict_xps]; rfl⟩)
  · exact .inl (by rw [h])

/-- An install that does not succeed changes nothing. -/
theorem State.install_failed {r : Install} {s : State} (hf : (s.install r).2.succeeded = false) :
    (s.install r).1 = s := by
  rcases s.install_cases r with ⟨-, -, h⟩ | ⟨-, ⟨i, c, -, h⟩ | ⟨-, ⟨i, -, h⟩ | ⟨-, ⟨i, c, -, -, h⟩ | ⟨-, h⟩⟩⟩⟩
  · rw [h]
  · rw [h] at hf ⊢
    rcases s.installJoin_cases r i c with ⟨-, e⟩ | ⟨-, -, e⟩ | ⟨-, -, e⟩
    · rw [e]
    · rw [e]
    · rw [e] at hf; simp [InstallResult.succeeded] at hf
  · rw [h, State.installFree_result] at hf; simp [InstallResult.succeeded] at hf
  · rw [h, State.installEvict_result] at hf; simp [InstallResult.succeeded] at hf
  · rw [h]

/-! ### What an install leaves alone, and what it sends (R8, R10) -/

/-- Into a FREE slot: EXHAUSTED is offered where it was the last. -/
theorem State.installFree_eq (r : Install) (i : SlotIx) (s : State) :
    let t := (s.installFree r i).1
    (t.xps.freeCount = 0 → t = (s.setXps t.xps).offer (.slotFull i t.xps.liveCount t.xps.retiredCount none))
      ∧ (t.xps.freeCount ≠ 0 → t = s.setXps t.xps) := by
  unfold State.installFree
  dsimp only
  split
  · rename_i h
    rw [State.offer_xps]
    exact ⟨fun _ => rfl, fun h' => absurd h h'⟩
  · rename_i h
    exact ⟨fun h' => absurd h' h, fun _ => rfl⟩

/-- By eviction: the BUSY requests are sent and EVICTED is offered. -/
theorem State.installEvict_eq (r : Install) (i : SlotIx) (c : Connection) (s : State) :
    let t := (s.installEvict r i c).1
    t = ((s.setXps t.xps).setRequests (s.requests ++ c.busyRequests)).offer
      (.slotFull i t.xps.liveCount t.xps.retiredCount (some (c.source, c.dest, c.cls))) := by
  unfold State.installEvict
  dsimp only
  rw [State.foldl_hand]
  simp
  rfl

/-- Every install changes the crosspoint set, the notices and the requests alone. -/
theorem State.install_eq (r : Install) (s : State) : ∃ m rs,
    (s.install r).1 = ((s.setXps (s.install r).1.xps).setManagement m).setRequests rs := by
  have offered (u : State) (body : NoticeBody) : ∃ m rs, u.offer body = (u.setManagement m).setRequests rs := by
    refine ⟨(u.offer body).management, (u.offer body).requests, ?_⟩
    rcases u.offer_cases body with ⟨-, h⟩ | ⟨-, h⟩ <;> rw [h] <;> rfl
  have same : ∃ m rs, s = ((s.setXps s.xps).setManagement m).setRequests rs := ⟨_, _, rfl⟩
  rcases s.install_cases r with ⟨-, -, h⟩ | ⟨-, ⟨i, c, -, h⟩ | ⟨-, ⟨i, -, h⟩ | ⟨-, ⟨i, c, -, -, h⟩ | ⟨-, h⟩⟩⟩⟩
  · rw [h]; exact same
  · rw [h]
    rcases s.installJoin_cases r i c with ⟨-, e⟩ | ⟨-, -, e⟩ | ⟨-, -, e⟩
    · rw [e]; exact same
    · rw [e]; exact same
    · rw [e]; exact ⟨s.management, s.requests, rfl⟩
  · rw [h]
    obtain ⟨h0, h1⟩ := s.installFree_eq r i
    by_cases hf : (s.installFree r i).1.xps.freeCount = 0
    · obtain ⟨m, rs, e⟩ := offered (s.setXps (s.installFree r i).1.xps) _
      exact ⟨m, rs, (h0 hf).trans e⟩
    · exact ⟨s.management, s.requests, h1 hf⟩
  · rw [h]
    obtain ⟨m, rs, e⟩ := offered ((s.setXps (s.installEvict r i c).1.xps).setRequests
      (s.requests ++ c.busyRequests)) _
    exact ⟨m, rs, (s.installEvict_eq r i c).trans e⟩
  · rw [h]; exact same

end Sys2Proof.Machine
end

section
/-!
PROOFS, the obligations about installs and removals by owner (O28, O29, O31).
-/

namespace Sys2Proof.Machine

/-! ### Owners -/

theorem Owner.same_iff (a b : Owner) :
    a.same b = true ↔ a = b ∨ ∃ m n, a = .controller m ∧ b = .controller n := by
  cases a with
  | key p k => cases b <;> simp [Owner.same]
  | cue c => cases b <;> simp [Owner.same]
  | controller m =>
    cases b with
    | key | cue => simp [Owner.same]
    | controller n => simp [Owner.same]

theorem pinnedBy_iff (os : List Owner) :
    pinnedBy os = true ↔ Owner.controller true ∈ os ∨ ∃ c, Owner.cue c ∈ os := by
  unfold pinnedBy
  rw [List.any_eq_true]
  constructor
  · rintro ⟨o, ho, hp⟩
    cases o with
    | key => cases hp
    | cue c => exact .inr ⟨c, ho⟩
    | controller pin => cases pin with
      | true => exact .inl ho
      | false => cases hp
  · rintro (h | ⟨c, h⟩)
    · exact ⟨_, h, rfl⟩
    · exact ⟨_, h, rfl⟩

theorem Endpoint.isChannel_iff (e : Endpoint) : e.isChannel = true ↔ ∃ c, e = .channel c := by
  cases e <;> simp [Endpoint.isChannel]

theorem SlotClass.calls_iff (c : SlotClass) : c.calls = true ↔ c = .priority ∨ c = .cueCall := by
  cases c <;> simp [SlotClass.calls]

/-! ### An install by the search that finds its slot (R6 to R9) -/

section
variable {s : State} {r : Install} (hch : ¬ ∃ m n : Channel, r.source = .channel m ∧ r.dest = .channel n)
include hch

theorem install_allowed : (r.source.isChannel && r.dest.isChannel) = false := by
  rw [Bool.and_eq_false_iff, ← Bool.not_eq_true, ← Bool.not_eq_true, Endpoint.isChannel_iff,
    Endpoint.isChannel_iff]
  by_contra h
  push Not at h
  obtain ⟨⟨m, hm⟩, n, hn⟩ := h
  exact hch ⟨m, n, hm, hn⟩

theorem State.install_of_matching {i : SlotIx} {c : Connection} (hm : s.xps.matching r = some (i, c)) :
    s.install r = s.installJoin r i c := by
  simp [State.install, install_allowed hch, hm]

theorem State.install_of_free {i : SlotIx} (hm : s.xps.matching r = none) (hf : s.xps.firstFree = some i) :
    s.install r = s.installFree r i := by
  simp [State.install, install_allowed hch, hm, hf]

theorem State.install_of_oldest {i : SlotIx} {c : Connection} (hm : s.xps.matching r = none)
    (hf : s.xps.firstFree = none) (hk : r.cls.calls = true)
    (ho : oldestOf s.trunk.clock s.xps.candidates = some (i, c)) : s.install r = s.installEvict r i c := by
  simp [State.install, install_allowed hch, hm, hf, hk, ho]

theorem State.install_of_none (hm : s.xps.matching r = none) (hf : s.xps.firstFree = none)
    (hk : r.cls.calls = true → s.xps.candidates = []) : s.install r = (s, .noSlot) := by
  cases h : r.cls.calls with
  | false => simp [State.install, install_allowed hch, hm, hf, h]
  | true => simp [State.install, install_allowed hch, hm, hf, h, hk h, oldestOf]

end

/-- Settles O28: each search is shown to find the slot that the clause names, and the branch that it opens does
the rest. -/
theorem installTaken : Obligations.InstallTaken := by
  refine ⟨Owner.same_iff, pinnedBy_iff, fun s r m n hm hn => ?_, fun s r hx hch => ?_⟩
  · simp [State.install, hm, hn, Endpoint.isChannel]
  intro fresh x y others
  have others_of {i : SlotIx} {v : Slot} (hy : y.slots = (x.setSlot i v).slots) : others i := by
    intro j hj
    rw [hy, CrosspointSet.setSlot_get, if_neg hj]
  have at_of {i : SlotIx} {v : Slot} (hy : y.slots = (x.setSlot i v).slots) : y.slots[i] = v := by
    rw [hy, CrosspointSet.setSlot_get, if_pos rfl]
  refine ⟨fun i c hc hs hd hk => ?_, fun hnone => ?_⟩
  · have hi := State.install_of_matching hch
      (CrosspointSet.matching_of_live hx hc (Connection.matches_iff.2 ⟨hs, hd, hk⟩))
    rcases s.installJoin_cases r i c with ⟨⟨o, ho, hsame⟩, e⟩ | ⟨hno, hl, e⟩ | ⟨hno, hl, e⟩
    · have hy : y = x := by simp only [y, hi, e, x]
      refine ⟨by rw [hy], fun j _ => by rw [hy], fun _ => ⟨by rw [hi, e], by rw [hy]⟩, fun h => ?_, fun h => ?_⟩
      all_goals rw [h o ho] at hsame; cases hsame
    · have hy : y = x := by simp only [y, hi, e, x]
      refine ⟨by rw [hy], fun j _ => by rw [hy], ?_, fun _ _ => ⟨by rw [hi, e], by rw [hy]⟩, fun _ h => by omega⟩
      rintro ⟨o, ho, h⟩
      rw [hno o ho] at h; cases h
    · have hy : y = x.setSlot i (.live { c with
          owners := c.owners ++ [r.owner], pinned := pinnedBy (c.owners ++ [r.owner]) }) := by
        simp only [y, hi, e, x, State.setXps_xps]
      refine ⟨by rw [hy]; simp, others_of (by rw [hy]), ?_, fun _ h => by omega,
        fun _ _ => ⟨by rw [hi, e], at_of (by rw [hy])⟩⟩
      rintro ⟨o, ho, h⟩
      rw [hno o ho] at h; cases h
  · have hm : x.matching r = none := CrosspointSet.matching_none.2 fun i c hc => by
      rw [← Bool.not_eq_true, Connection.matches_iff]
      exact hnone i c hc
    refine ⟨fun n hn hfirst => ?_, fun hfull => ?_⟩
    · have hi := State.install_of_free hch hm (CrosspointSet.firstFree_eq_some hn hfirst)
      have hy : y = { x.setSlot (x.pointer + n) (.live fresh) with pointer := x.pointer + n + 1 } := by
        simp only [y, hi, State.installFree_xps]
        rfl
      exact ⟨by rw [hi, State.installFree_result], at_of (by rw [hy]), others_of (by rw [hy]), by rw [hy]⟩
    · have hf : x.firstFree = none := CrosspointSet.firstFree_none.2 hfull
      have none_of (hk : r.cls.calls = true → x.candidates = []) :
          (s.install r).2 = .noSlot ∧ y = x := by
        have hi := State.install_of_none hch hm hf hk
        exact ⟨by rw [hi], by simp only [y, hi, x]⟩
      refine ⟨?_, fun hk => ⟨fun i c hc ht hp hold => ?_, fun hpinned => ?_⟩, fun h1 h2 => ?_⟩
      · rcases s.install_xps r with h | ⟨i, c, -, -, -, -, h⟩ | ⟨-, -, i, p, h⟩
        · simp only [y, h, x]
        · simp only [y, h, x, CrosspointSet.setSlot_pointer]
        · rcases s.install_cases r with
            ⟨-, -, e⟩ | ⟨-, ⟨_, _, hm', -⟩ | ⟨-, ⟨_, hf', -⟩ | ⟨-, ⟨_, _, -, -, e⟩ | ⟨-, e⟩⟩⟩⟩
          · simp only [y, e, x]
          · rw [hm] at hm'; cases hm'
          · rw [hf] at hf'; cases hf'
          · simp only [y, e, State.installEvict_xps, x, CrosspointSet.setSlot_pointer]
          · simp only [y, e, x]
      · have hcand := CrosspointSet.mem_candidates.2 ⟨hc, ht, hp⟩
        have hi := State.install_of_oldest hch hm hf ((SlotClass.calls_iff _).2 hk)
          (CrosspointSet.oldest_candidate (clock := s.trunk.clock) hcand fun f hf => by
            obtain ⟨j, d⟩ := f
            obtain ⟨hd, htd, hpd⟩ := CrosspointSet.mem_candidates.1 hf
            rcases hold j d hd htd hpd with h | ⟨h, hij⟩
            · exact .inl h
            · exact .inr ⟨by simp only [Connection.age, h], hij⟩)
        have hy : y = x.setSlot i (.live fresh) := by
          simp only [y, hi, State.installEvict_xps]
          rfl
        exact ⟨by rw [hi, State.installEvict_result], at_of (by rw [hy]), others_of (by rw [hy])⟩
      · obtain ⟨h, hy⟩ := none_of fun _ => List.eq_nil_iff_forall_not_mem.2 fun f hf => by
          obtain ⟨j, d⟩ := f
          obtain ⟨hd, htd, hpd⟩ := CrosspointSet.mem_candidates.1 hf
          rw [hpinned j d hd htd] at hpd
          cases hpd
        exact ⟨h, by rw [hy]⟩
      · obtain ⟨h, hy⟩ := none_of fun hk => by
          rcases (SlotClass.calls_iff _).1 hk with h | h
          · exact absurd h h1
          · exact absurd h h2
        exact ⟨h, by rw [hy]⟩

/-! ### Counts of slots (R10) -/

/-- The slots of a code are as many as the indices that hold one. -/
theorem CrosspointSet.count_eq (x : CrosspointSet) (code : Nat) (test : Slot → Bool)
    (h : ∀ v : Slot, (v.code == code) = test v) :
    x.count code = ((List.finRange 64).filter fun i => test x.slots[i]).length := by
  have all : x.slots.toList = (List.finRange 64).map fun i => x.slots[i] := by
    refine List.ext_getElem (by simp) fun i h1 h2 => by simp
  unfold CrosspointSet.count
  rw [all, List.countP_map, List.countP_eq_length_filter]
  exact congrArg List.length (List.filter_congr fun i _ => h _)

/-- Settles O29: an install sends what its branch sends; a notice joins its queue or is discarded. -/
theorem installNotices : Obligations.InstallNotices := by
  refine ⟨fun s body => ?_, fun x => ⟨?_, ?_, ?_⟩, fun s r => ?_⟩
  · have seq (b : Byte) : BitVec.ofNat 8 ((b.toNat + 1) % 256) = b + 1 := by
      apply BitVec.eq_of_toNat_eq
      simp [BitVec.toNat_add]
    dsimp only
    rw [seq]
    rcases s.offer_cases body with ⟨h, e⟩ | ⟨h, e⟩
    · exact ⟨fun _ => e, fun h' => by omega⟩
    · exact ⟨fun h' => by omega, fun _ => e⟩
  · exact x.count_eq 1 (fun v => v == .free) fun v => by cases v <;> rfl
  · exact x.count_eq 3 (fun v => v == .retired) fun v => by cases v <;> rfl
  · refine (x.count_eq 2 (fun v => v.connection?.isSome) fun v => by cases v <;> rfl).trans ?_
    refine congrArg List.length (List.filter_congr fun i _ => ?_)
    cases x.slots[i] <;> rfl
  · intro t
    obtain ⟨m, rs, ht⟩ := s.install_eq r
    have ht : t = ((s.setXps t.xps).setManagement m).setRequests rs := ht
    refine ⟨by rw [ht]; rfl, by rw [ht]; rfl, by rw [ht]; rfl, by rw [ht]; rfl, by rw [ht]; rfl, by rw [ht]; rfl,
      by rw [ht]; rfl, by rw [ht]; rfl, by rw [ht]; rfl, by rw [ht]; rfl, ?_⟩
    rcases s.install_cases r with ⟨-, -, h⟩ | ⟨-, ⟨i, c, -, h⟩ | ⟨-, ⟨i, -, h⟩ | ⟨-, ⟨i, c, -, ho, h⟩ | ⟨-, h⟩⟩⟩⟩
    · have : t = s := by simp only [t, h]
      simp [h, this]
    · rcases s.installJoin_cases r i c with ⟨-, e⟩ | ⟨-, -, e⟩ | ⟨-, -, e⟩
      all_goals simp [t, h, e]
    · have : t = (s.installFree r i).1 := by simp only [t, h]
      rw [h, State.installFree_result, this]
      refine ⟨fun j e => ?_, fun _ _ _ e => ?_, fun hn => absurd rfl (hn i none)⟩
      · cases e
        exact s.installFree_eq r i
      · cases e
    · have : t = (s.installEvict r i c).1 := by simp only [t, h]
      rw [h, State.installEvict_result, this]
      refine ⟨fun _ e => ?_, fun i' j d e hd => ?_, fun hn => absurd rfl (hn i (some i))⟩
      · cases e
      · cases e
        have hc := (CrosspointSet.mem_candidates.1 (oldestOf_some (s.xps.live_rising.filter _) ho).1).1
        rw [hc] at hd
        cases hd
        exact ⟨rfl, s.installEvict_eq r i c⟩
    · have : t = s := by simp only [t, h]
      simp [h, this]

/-! ### Owners leave (R11) -/

/-- What becomes of a LIVE slot when owners leave: it is unchanged, FREE, or LIVE with the owners left. -/
theorem Slot.remove_live (gone : Owner → Bool) (c : Connection) :
    ((∀ o ∈ c.owners, gone o = false) ∧ (Slot.live c).remove gone = .live c)
    ∨ ((∃ o ∈ c.owners, gone o = true) ∧ (∀ o ∈ c.owners, gone o = true) ∧ (Slot.live c).remove gone = .free)
    ∨ ((∃ o ∈ c.owners, gone o = true) ∧ (∃ o ∈ c.owners, gone o = false) ∧ (Slot.live c).remove gone =
        .live { c with owners := c.owners.filter fun o => !gone o
                       pinned := pinnedBy (c.owners.filter fun o => !gone o) }) := by
  unfold Slot.remove
  by_cases h : ∃ o ∈ c.owners, gone o = true
  · right
    simp only [List.any_eq_true, if_pos h]
    by_cases hl : ∀ o ∈ c.owners, gone o = true
    · exact .inl ⟨h, hl, if_pos (by simpa using hl)⟩
    · exact .inr ⟨h, by simpa using hl, if_neg (by simpa using hl)⟩
  · have h' : ∀ o ∈ c.owners, gone o = false := by simpa using h
    exact .inl ⟨h', if_neg (by simpa using h')⟩

theorem Slot.remove_of_not_live (gone : Owner → Bool) {v : Slot} (h : ∀ c, v ≠ .live c) : v.remove gone = v := by
  cases v with
  | live c => exact absurd rfl (h c)
  | lockedOut | free | retired => rfl

/-- Settles O31: slot by slot, by what the removal makes of it. -/
theorem ownersRemoved : Obligations.OwnersRemoved := by
  refine fun x gone => ⟨x.remove_pointer gone, fun i => ⟨fun h => ?_, fun c hc => ?_⟩⟩
  · rw [CrosspointSet.remove_get, Slot.remove_of_not_live gone h]
  · rw [CrosspointSet.remove_get, hc]
    rcases Slot.remove_live gone c with ⟨hno, e⟩ | ⟨⟨o, ho, hgo⟩, hall, e⟩ | ⟨⟨o, ho, hgo⟩, ⟨o', ho', hgo'⟩, e⟩
    · refine ⟨fun _ => e, ?_, ?_⟩
      all_goals
        rintro ⟨o, ho, h⟩
        rw [hno o ho] at h
        cases h
    · refine ⟨fun h => ?_, fun _ _ => e, ?_⟩
      · rw [h o ho] at hgo; cases hgo
      · rintro - ⟨o', ho', h⟩
        rw [hall o' ho'] at h
        cases h
    · refine ⟨fun h => ?_, fun _ h => ?_, fun _ _ => ⟨_, e, List.filter_sublist, fun a => by simp⟩⟩
      · rw [h o ho] at hgo; cases hgo
      · rw [h o' ho'] at hgo'; cases hgo'

end Sys2Proof.Machine
end

section
/-!
PROOFS, what a step can do to what the invariants speak of. Most commands are quiet: they leave the crosspoint set,
the key states, the work of the walker and the requests of a reset as they are. `State.Quiet` says so once, with one
lemma for each operation that the commands are made of.
-/

namespace Sys2Proof.Machine

/-! ### Table RAM and the load in execution -/

/-- Table RAM as reads, scrubs, record writes and RAM initialisation can leave it: writes to existing places, each
of a content that was there or whose gain is sound, and the clearing of every place. -/
inductive TableRam.Reaches (m : TableRam) : TableRam → Prop
  | refl : TableRam.Reaches m m
  | clear : TableRam.Reaches m []
  | write {n : TableRam} (h : TableRam.Reaches m n) {i : Nat} (hi : i < 1024) {x : RecordPlace}
      (hx : x.content = (n.read i).content ∨ x.content.gainSound) : TableRam.Reaches m (n.write i x)

theorem TableRam.Reaches.trans {l m n : TableRam} (h : l.Reaches m) (h' : m.Reaches n) : l.Reaches n := by
  induction h' with
  | refl => exact h
  | clear => exact .clear
  | write _ hi hx ih => exact ih.write hi hx

theorem TableRam.Reaches.wf {m n : TableRam} (h : m.Reaches n) (hm : m.wf) : n.wf := by
  induction h with
  | refl => exact hm
  | clear => exact TableRam.wf_nil
  | write _ hi _ ih => exact TableRam.write_wf ih hi _

/-- Every record in table RAM has a sound gain (R43). -/
def TableRam.gainsSound (m : TableRam) : Prop := ∀ i : Nat, (m.read i).content.gainSound

theorem TableRam.Reaches.gainsSound {m n : TableRam} (h : m.Reaches n) (hm : m.wf) (hg : m.gainsSound) :
    n.gainsSound := by
  induction h with
  | refl => exact hg
  | clear => exact fun i hv => absurd hv (by simp [TableRam.read, RecordPlace.initial, Record.initial])
  | write h _ hx ih =>
    intro j
    rw [TableRam.read_write (h.wf hm)]
    split
    · rename_i hij
      rcases hx with hx | hx
      · rw [hx]; exact ih _
      · exact hx
    · exact ih j

theorem TableRam.Reaches.upset {m : TableRam} (u : Place × Upset) : m.Reaches (m.upset u) :=
  TableRam.Reaches.refl.write u.1.isLt (.inl rfl)

theorem TableRam.Reaches.upsetAll {m : TableRam} (us : Upsets) : m.Reaches (m.upsetAll us) := by
  unfold TableRam.upsetAll
  induction us generalizing m with
  | nil => exact .refl
  | cons u rest ih => exact (TableRam.Reaches.upset u).trans ih

theorem TableRam.Reaches.scrub {m : TableRam} (i : Place) : m.Reaches (m.scrub i) :=
  TableRam.Reaches.refl.write i.isLt (.inl rfl)

theorem TableRam.Reaches.scrubs {m : TableRam} (is : List Place) : m.Reaches (is.foldl TableRam.scrub m) := by
  induction is generalizing m with
  | nil => exact .refl
  | cons i rest ih => exact (TableRam.Reaches.scrub i).trans ih

theorem TableRam.Reaches.fetch {m : TableRam} (i : Place) : m.Reaches (m.fetch i).2.1 := by
  rcases m.fetch_cases i with h | h <;> rw [h]
  · exact .refl
  · exact TableRam.Reaches.refl.write i.isLt (.inl rfl)

/-- Noting a record adds at most one hit, the record itself. -/
theorem Reading.note_hits (a : Reading) (tag : Tag) (scene : Scene) (i : Place) (r : Record) :
    (a.note tag scene i r).hits = a.hits ∨ (a.note tag scene i r).hits = a.hits ++ [⟨i, r⟩] := by
  unfold Reading.note
  dsimp only
  split
  · split
    · split
      · exact .inr rfl
      · exact .inl rfl
    · exact .inl rfl
  · exact .inl rfl

/-- A visit of a place, which may add its record to the hits, ends the reading of a chain or is followed by the
reading of the rest. -/
theorem readChain_cases (tag : Tag) (region : Region) (scene : Scene) (fuel : Nat) (m : TableRam) (i : Place)
    (a : Reading) :
    ∃ a' : Reading, (a'.hits = a.hits ∨ ∃ r b, (m.fetch i).1 = .content r b ∧ r.valid = true
        ∧ a'.hits = a.hits ++ [⟨i, r⟩])
      ∧ ((readChain tag region scene fuel m i a).1.hits = a'.hits
          ∧ (readChain tag region scene fuel m i a).2.1 = (m.fetch i).2.1
        ∨ ∃ fuel' j, fuel = fuel' + 1
          ∧ (readChain tag region scene fuel m i a).1 = (readChain tag region scene fuel' (m.fetch i).2.1 j a').1
          ∧ (readChain tag region scene fuel m i a).2.1
            = (readChain tag region scene fuel' (m.fetch i).2.1 j a').2.1) := by
  rw [readChain.eq_def tag region scene fuel m i a]
  dsimp only
  rcases m.fetch i with ⟨_ | ⟨r, corrected⟩, n, faults⟩
  · exact ⟨a, .inl rfl, .inl ⟨rfl, rfl⟩⟩
  · dsimp only
    generalize ha : (if corrected = true then _ else _ : Reading) = b
    have hb : b.hits = a.hits := by subst ha; split <;> rfl
    by_cases hv : r.valid = true
    · refine ⟨b.note tag scene i r, ?_, ?_⟩
      · rcases b.note_hits tag scene i r with e | e
        · exact .inl (e.trans hb)
        · exact .inr ⟨r, corrected, rfl, hv, by rw [e, hb]⟩
      · rw [if_pos hv]
        by_cases he : r.endsChain region.span = true
        · rw [if_pos he]
          exact .inl ⟨rfl, rfl⟩
        · rw [if_neg he]
          cases fuel with
          | zero => exact .inl ⟨rfl, rfl⟩
          | succ fuel => exact .inr ⟨fuel, region.place r.next.toNat, rfl, rfl, rfl⟩
    · rw [if_neg hv]
      exact ⟨b, .inl hb, .inl ⟨rfl, rfl⟩⟩

/-- What each visit of a place keeps of table RAM and the hits, the reading of a chain keeps (R69). -/
theorem readChain_keeps {P : TableRam → List Hit → Prop}
    (visit : ∀ m i hs, P m hs → P (TableRam.fetch m i).2.1 hs)
    (hit : ∀ m i hs r b, P m hs → (TableRam.fetch m i).1 = .content r b → r.valid = true →
      P (TableRam.fetch m i).2.1 (hs ++ [⟨i, r⟩]))
    (tag : Tag) (region : Region) (scene : Scene) (fuel : Nat) {m : TableRam} (i : Place) {a : Reading}
    (h : P m a.hits) :
    P (readChain tag region scene fuel m i a).2.1 (readChain tag region scene fuel m i a).1.hits := by
  induction fuel generalizing m i a with
  | zero =>
    obtain ⟨a', ha, ⟨e1, e2⟩ | ⟨_, _, h0, -⟩⟩ := readChain_cases tag region scene 0 m i a
    · rw [e1, e2]
      rcases ha with e | ⟨r, b, hf, hv, e⟩ <;> rw [e]
      · exact visit m i _ h
      · exact hit m i _ r b h hf hv
    · cases h0
  | succ fuel ih =>
    obtain ⟨a', ha, hend⟩ := readChain_cases tag region scene (fuel + 1) m i a
    have visited : P (m.fetch i).2.1 a'.hits := by
      rcases ha with e | ⟨r, b, hf, hv, e⟩ <;> rw [e]
      · exact visit m i _ h
      · exact hit m i _ r b h hf hv
    rcases hend with ⟨e1, e2⟩ | ⟨fuel', j, hfuel, e1, e2⟩ <;> rw [e1, e2]
    · exact visited
    · cases hfuel
      exact ih j visited

theorem TableRam.Reaches.readWalk (m : TableRam) (tag : Tag) (region : Region) (scene : Scene) :
    m.Reaches (readWalk tag region scene m).2.1 :=
  readChain_keeps (P := fun n _ => m.Reaches n) (fun _ i _ h => h.trans (.fetch i))
    (fun _ i _ _ _ h _ _ => h.trans (.fetch i)) tag region scene _ _ .refl

/-- A read of a place gives its content. -/
theorem TableRam.fetch_content {m : TableRam} {i : Place} {r : Record} {b : Bool}
    (h : (m.fetch i).1 = .content r b) : r = (m.read i.val).content := by
  unfold TableRam.fetch at h
  dsimp only at h
  split at h
  · cases h
  · split at h <;> cases h <;> rfl

/-- The hits of a walk are of records whose gain is sound (R43). -/
theorem readWalk_gains {m : TableRam} (hm : m.wf) (hg : m.gainsSound) (tag : Tag) (region : Region)
    (scene : Scene) : ∀ h ∈ (readWalk tag region scene m).1.hits, h.content.gain.toNat ≤ Config.gainTop :=
  (readChain_keeps
    (P := fun n hs => m.Reaches n ∧ ∀ h ∈ hs, h.content.gain.toNat ≤ Config.gainTop)
    (fun _ i _ h => ⟨h.1.trans (.fetch i), h.2⟩)
    (fun n i hs r b ⟨hn, hhs⟩ hf hv => ⟨hn.trans (.fetch i), fun x hx => by
      rcases List.mem_append.1 hx with hx | hx
      · exact hhs x hx
      · obtain rfl := List.mem_singleton.1 hx
        obtain rfl := TableRam.fetch_content hf
        exact hn.gainsSound hm hg i hv⟩)
    tag region scene _ _ ⟨.refl, fun _ h => absurd h List.not_mem_nil⟩).2

/-- What a step does to table RAM and to the load in execution, the load being sound. -/
structure State.Stored (s t : State) : Prop where
  load : s.loadSound → t.loadSound
  ram : s.loadSound → s.directory.ram.Reaches t.directory.ram

theorem State.Stored.trans {s t u : State} (h : s.Stored t) (h' : t.Stored u) : s.Stored u :=
  ⟨fun hl => h'.load (h.load hl), fun hl => (h.ram hl).trans (h'.ram (h.load hl))⟩

theorem State.Stored.of_eq {s t : State} (he : t.management.execution = s.management.execution)
    (hd : t.directory.ram = s.directory.ram) : s.Stored t :=
  ⟨fun hl l h => hl l (he ▸ h), fun _ => hd ▸ .refl⟩

/-- A state that runs no load is sound in this. -/
theorem State.loadSound_of {s : State} (h : ∀ l, s.management.execution ≠ .load l) : s.loadSound :=
  fun l hl => absurd hl (h l)

/-! ### The work of the walker -/

/-- The walker has the same work in hand, but for the marks of a walk: its BUSY request held, and before its
reading has ended its suppression. -/
def Job.Alike (j j' : Job) : Prop :=
  j' = j ∨ ∃ w w' rest, j = .walking w rest ∧ j' = .walking w' rest ∧ w'.tag = w.tag ∧ w'.reading = w.reading
    ∧ w'.phase = w.phase ∧ (w.phase ≠ .read → w'.suppressed = w.suppressed)

theorem Job.Alike.trans {i j k : Job} (h : i.Alike j) (h' : j.Alike k) : i.Alike k := by
  rcases h with rfl | ⟨w, w', rest, rfl, rfl, ht, hr, hp, hs⟩
  · exact h'
  rcases h' with rfl | ⟨v, v', rest', hv, rfl, ht', hr', hp', hs'⟩
  · exact .inr ⟨w, w', rest, rfl, rfl, ht, hr, hp, hs⟩
  cases hv
  exact .inr ⟨w, v', rest, rfl, rfl, ht'.trans ht, hr'.trans hr, hp'.trans hp,
    fun h => (hs' (hp ▸ h)).trans (hs h)⟩

theorem Job.Alike.waiting {j : Job} {tag : Tag} {retry : Bool} {rest : List KeyLevel}
    (h : j.Alike (.waiting tag retry rest)) : j = .waiting tag retry rest := by
  rcases h with h | ⟨_, _, _, _, h, _⟩
  · exact h.symm
  · cases h

theorem Job.Alike.walking {j : Job} {w' : Walk} {rest : List KeyLevel} (h : j.Alike (.walking w' rest)) :
    ∃ w, j = .walking w rest ∧ w'.tag = w.tag ∧ w'.reading = w.reading ∧ w'.phase = w.phase
      ∧ (w.phase ≠ .read → w'.suppressed = w.suppressed) := by
  rcases h with rfl | ⟨w, v, r, rfl, h, ht, hr, hp, hs⟩
  · exact ⟨w', rfl, rfl, rfl, rfl, fun _ => rfl⟩
  · cases h
    exact ⟨w, rfl, ht, hr, hp, hs⟩

theorem Job.Alike.idle {j : Job} (h : Job.Alike .idle j) : j = .idle := by
  rcases h with h | ⟨_, _, _, h, _⟩
  · exact h
  · cases h

theorem Job.Alike.hits {j j' : Job} (h : j.Alike j') : j'.hits = j.hits := by
  rcases h with rfl | ⟨w, w', rest, rfl, rfl, -, hr, hp, -⟩
  · rfl
  · simp [Job.hits, Job.walk?, hr, hp]

/-! ### Quiet steps -/

/-- The requests that a reset of the walker, of its rows or of the circuits hands over (R81, R174). -/
def Request.resets : Request → Bool
  | .removeKeysAndCues | .walkerReset | .circuitAbort | .portRowReset _ => true
  | .removePortKeys _ | .removeCircuit _ | .portResync _ | .busyLamp _ _ | .lostMark _ _ | .answer _ _
  | .desk _ _ _ _ | .fault _ _ => false

/-- A request whose coming and going concerns the owners of slots. -/
def Request.watched : Request → Bool
  | .removeCircuit _ => true
  | r => r.resets

theorem Request.watched_of_resets {r : Request} (h : r.resets = true) : r.watched = true := by
  unfold Request.watched
  split
  · rfl
  · exact h

/-- A quiet step: it keeps the crosspoint set, the state of every key and the requests of a reset, leaves the walker
what it has in hand, and takes from no circuit its right to own slots. -/
structure State.Quiet (s t : State) : Prop where
  xps : t.xps = s.xps
  job : s.walker.job.Alike t.walker.job
  keys : ∀ p k, (t.entry p k).state = (s.entry p k).state
  circuits : ∀ c, s.circuitOwns c → t.circuitOwns c
  requests : ∀ r : Request, r.resets = true → (r ∈ t.requests ↔ r ∈ s.requests)
  stored : s.Stored t

namespace State.Quiet

variable {s t : State}

/-- A step that changes none of what the invariants speak of. -/
theorem of_eq (hx : t.xps = s.xps) (hw : t.walker = s.walker) (hc : t.circuits = s.circuits)
    (hr : t.requests = s.requests) (he : t.management.execution = s.management.execution)
    (hd : t.directory.ram = s.directory.ram) : s.Quiet t where
  xps := hx
  job := .inl (by rw [hw])
  keys p k := by rw [State.entry, hw, State.entry]
  circuits c h := by rw [State.circuitOwns, hc, hr]; exact h
  requests r _ := by rw [hr]
  stored := .of_eq he hd

theorem refl (s : State) : s.Quiet s := of_eq rfl rfl rfl rfl rfl rfl

theorem trans {u : State} (h : s.Quiet t) (h' : t.Quiet u) : s.Quiet u where
  xps := h'.xps.trans h.xps
  job := h.job.trans h'.job
  keys p k := (h'.keys p k).trans (h.keys p k)
  circuits c hc := h'.circuits c (h.circuits c hc)
  requests r hr := (h'.requests r hr).trans (h.requests r hr)
  stored := h.stored.trans h'.stored

/-! #### Fields that no invariant of this family speaks of -/

theorem setTrunk (h : s.Quiet t) (x : TrunkPort) : s.Quiet (t.setTrunk x) :=
  h.trans (of_eq rfl rfl rfl rfl rfl rfl)
theorem setPorts (h : s.Quiet t) (x : Vector StationPort 16) : s.Quiet (t.setPorts x) :=
  h.trans (of_eq rfl rfl rfl rfl rfl rfl)
theorem setPort (h : s.Quiet t) (p : Port) (x : StationPort) : s.Quiet (t.setPort p x) :=
  h.trans (of_eq rfl rfl rfl rfl rfl rfl)
theorem setCueList (h : s.Quiet t) (x : CueList) : s.Quiet (t.setCueList x) :=
  h.trans (of_eq rfl rfl rfl rfl rfl rfl)
theorem setFaultLog (h : s.Quiet t) (x : FaultLog) : s.Quiet (t.setFaultLog x) :=
  h.trans (of_eq rfl rfl rfl rfl rfl rfl)

theorem setManagement (h : s.Quiet t) (m : Management) (he : m.execution = t.management.execution) :
    s.Quiet (t.setManagement m) :=
  h.trans (of_eq rfl rfl rfl rfl he rfl)

theorem setDirectory (h : s.Quiet t) (d : Directory) (hd : t.directory.ram.Reaches d.ram) :
    s.Quiet (t.setDirectory d) :=
  h.trans { of_eq (s := t) (t := t.setDirectory t.directory) rfl rfl rfl rfl rfl rfl with
    stored := ⟨id, fun _ => hd⟩ }

/-- The walker's queue and counts, and a key entry whose state stays, are free. -/
theorem setWalker (h : s.Quiet t) (w : Walker) (hj : t.walker.job.Alike w.job)
    (hk : ∀ p k, (w.entry p k).state = (t.walker.entry p k).state) : s.Quiet (t.setWalker w) :=
  h.trans { of_eq (s := t) (t := t.setWalker t.walker) rfl rfl rfl rfl rfl rfl with
    job := hj
    keys := hk
    stored := .of_eq rfl rfl }

theorem setEntry (h : s.Quiet t) (p : Port) (k : Key) (e : KeyEntry) (he : e.state = (t.entry p k).state) :
    s.Quiet (t.setEntry p k e) := by
  refine h.setWalker _ (.inl rfl) fun q j => ?_
  by_cases hpk : p = q ∧ k = j
  · obtain ⟨rfl, rfl⟩ := hpk
    rw [Walker.setEntry_entry_same]
    exact he
  · rw [Walker.setEntry_entry_other _ (by tauto)]

theorem enqueue (h : s.Quiet t) (e : KeyEvent) : s.Quiet (t.enqueue e) :=
  h.setWalker _ (.inl rfl) fun _ _ => rfl

/-! #### Requests -/

theorem setRequests (h : s.Quiet t) (rs : List Request)
    (hr : ∀ r : Request, r.watched = true → (r ∈ rs ↔ r ∈ t.requests)) : s.Quiet (t.setRequests rs) :=
  h.trans { of_eq (s := t) (t := t.setRequests t.requests) rfl rfl rfl rfl rfl rfl with
    circuits := fun c hc => hc.imp_right fun hm => (hr (.removeCircuit c) rfl).2 hm
    requests := fun r hrr => hr r (Request.watched_of_resets hrr)
    stored := .of_eq rfl rfl }

theorem hand (h : s.Quiet t) {r : Request} (hr : r.resets = false) : s.Quiet (t.hand r) :=
  h.trans { of_eq (s := t) (t := t.setRequests t.requests) rfl rfl rfl rfl rfl rfl with
    circuits := fun c hc => hc.imp_right fun hm => List.mem_append_left _ hm
    requests := fun q hq => by
      have : q ≠ r := by rintro rfl; rw [hr] at hq; cases hq
      simp [this]
    stored := .of_eq rfl rfl }

theorem report (h : s.Quiet t) (kind : FaultKind) (loc : Location) : s.Quiet (t.report kind loc) := h.hand rfl

theorem reportAll (h : s.Quiet t) (faults : List (FaultKind × Location)) : s.Quiet (t.reportAll faults) := by
  unfold State.reportAll
  induction faults generalizing t with
  | nil => exact h
  | cons f rest ih => exact ih (h.report f.1 f.2)

/-- A request that no invariant watches is taken, and what follows is quiet. -/
theorem take (h : s.Quiet t) {r : Request} (hr : r.watched = false) {effect : State → State}
    (he : ∀ u : State, u.Quiet (effect u)) : s.Quiet (t.take r effect) := by
  rcases t.take_cases r effect with ⟨-, e⟩ | ⟨-, e⟩ <;> rw [e]
  · refine (h.setRequests _ fun q hq => ?_).trans (he _)
    exact List.mem_erase_of_ne (by rintro rfl; rw [hr] at hq; cases hq)
  · exact h

/-! #### Notices, replies and commands -/

theorem offer (h : s.Quiet t) (body : NoticeBody) : s.Quiet (t.offer body) := by
  rcases t.offer_cases body with ⟨-, e⟩ | ⟨-, e⟩ <;> rw [e]
  · exact h.setManagement _ rfl
  · refine report (h.setManagement _ ?_) _ _
    rfl

/-- Setting what the command at the head is doing: no load, or a sound one. -/
theorem execute (h : s.Quiet t) {e : Execution} (he : t.loadSound → ∀ l, e = .load l → l.sound) :
    s.Quiet (t.execute e) :=
  h.trans { of_eq (s := t) (t := t.setManagement t.management) rfl rfl rfl rfl rfl rfl with
    stored := ⟨he, fun _ => .refl⟩ }

theorem answer (h : s.Quiet t) (a : Answer) : s.Quiet (t.answer a) := by
  unfold State.answer
  split
  · exact h
  · exact h.trans { of_eq (s := t) (t := t.setManagement t.management) rfl rfl rfl rfl rfl rfl with
      stored := ⟨fun _ => State.loadSound_of nofun, fun _ => .refl⟩ }

theorem reply (h : s.Quiet t) (r : Reply) : s.Quiet (t.reply r) := by
  rcases t.reply_cases r with ⟨-, e⟩ | ⟨-, e⟩ <;> rw [e]
  · exact h.setManagement _ rfl
  · exact h

theorem begin {code : Nat} {effect : List Byte → State → State}
    (he : ∀ ps, s.Quiet (effect ps s)) : s.Quiet (s.begin code effect) := by
  rcases s.begin_cases code effect with e | ⟨c, rest, -, -, -, ⟨-, e⟩ | ⟨-, e⟩⟩ <;> rw [e]
  · exact refl s
  · exact (refl s).answer _
  · exact he _

theorem resetTaken (h : s.Quiet t) : s.Quiet t.resetTaken := by
  rcases t.resetTaken_cases with e | ⟨_, -, -, e⟩ <;> rw [e]
  · exact h
  · exact h.answer _

/-! #### Walks and circuits -/

theorem suppress (h : s.Quiet t) (these : Tag → Bool) : s.Quiet (t.suppress these) := by
  rcases t.suppress_cases these with ⟨w, rest, hj, hp, -, e⟩ | ⟨-, e⟩ <;> rw [e]
  · exact h.setWalker _ (.inr ⟨w, _, rest, hj, rfl, rfl, rfl, rfl, fun hn => absurd hp hn⟩) fun _ _ => rfl
  · exact h

theorem setCircuits (h : s.Quiet t) (v : Vector Circuit 24)
    (hv : ∀ c : CircuitIx, t.circuits[c].state ≠ .idle → v[c].state ≠ .idle) : s.Quiet (t.setCircuits v) :=
  h.trans { of_eq (s := t) (t := t.setCircuits t.circuits) rfl rfl rfl rfl rfl rfl with
    circuits := fun c hc => hc.imp_left (hv c)
    stored := .of_eq rfl rfl }

theorem setCircuit (h : s.Quiet t) (c : CircuitIx) (x : Circuit)
    (hx : t.circuits[c].state ≠ .idle → x.state ≠ .idle) : s.Quiet (t.setCircuit c x) := by
  refine h.setCircuits _ fun d hd => ?_
  simp only [Fin.getElem_fin, put_get] at hd ⊢
  split
  · rename_i hcd
    obtain rfl : c = d := Fin.ext hcd
    exact hx hd
  · exact hd

theorem postCueOpen (h : s.Quiet t) (c : CircuitIx) : s.Quiet (t.postCueOpen c) := by
  rcases t.postCueOpen_cases c with ⟨-, e⟩ | ⟨-, e⟩ <;> rw [e]
  · exact h.enqueue _
  · exact h.report _ _

end State.Quiet

end Sys2Proof.Machine
end

section
/-!
PROOFS, the quiet commands: each is made of quiet operations.
-/

namespace Sys2Proof.Machine

/-! ### Circuits and the cue list -/

namespace State.Quiet

variable {s t : State}

theorem offerCueEvent (h : s.Quiet t) (c : CircuitIx) (cue : Option CueNumber) :
    s.Quiet (t.offerCueEvent c cue) := h.offer _

theorem offerChanges (h : s.Quiet t) (before : Vector Circuit 24) : s.Quiet (t.offerChanges before) := by
  rw [State.offerChanges_eq]
  generalize (t.changedFrom before).map t.cueEvent = bodies
  induction bodies generalizing t with
  | nil => exact h
  | cons b rest ih => exact ih (h.offer b)

theorem standbyQuiet (h : s.Quiet t) (c : CircuitIx) (cue : Option CueNumber) :
    s.Quiet (t.standbyQuiet c cue).1 := by
  unfold State.standbyQuiet
  dsimp only
  split
  · split
    · exact h
    · exact (h.setCircuit _ _ fun _ => by simp [Circuit.enterStandby]).postCueOpen _
  · exact h
  · exact h
  · exact h
  · exact h.setCircuit _ _ id

theorem standby (h : s.Quiet t) (c : CircuitIx) (cue : Option CueNumber) : s.Quiet (t.standby c cue).1 :=
  (h.standbyQuiet c cue).offerChanges _

theorem goQuiet (h : s.Quiet t) (c : CircuitIx) (cue : Option CueNumber) : s.Quiet (t.goQuiet c cue).1 := by
  unfold State.goQuiet
  dsimp only
  split
  · exact h.setCircuit _ _ fun _ => by simp [Circuit.enterGo]
  · exact h

theorem go (h : s.Quiet t) (c : CircuitIx) (cue : Option CueNumber) : s.Quiet (t.go c cue).1 :=
  (h.goQuiet c cue).offerChanges _

/-- A circuit that enters IDLE hands over its removal, so it may still own its slots (R96). -/
theorem toIdle (h : s.Quiet t) (c : CircuitIx) (x : Circuit) : s.Quiet (t.toIdle c x) := by
  have q := ((refl (t.setCircuit c x.enterIdle)).offerCueEvent c x.cue).hand (r := .removeCircuit c) rfl
  refine (h.trans ?_).suppress _
  exact {
    xps := q.xps
    job := q.job
    keys := q.keys
    circuits := fun d hd => by
      by_cases hdc : d = c
      · subst hdc
        exact .inr (by simp)
      · refine q.circuits d (hd.imp_left fun hs => ?_)
        have := put_get_other t.circuits (Ne.symm hdc) x.enterIdle
        simp only [State.setCircuit_circuits, Fin.getElem_fin] at hs ⊢
        rw [this]
        exact hs
    requests := q.requests
    stored := State.Stored.trans (t := t.setCircuit c x.enterIdle) (.of_eq rfl rfl) q.stored }

theorem cancel (h : s.Quiet t) (c : CircuitIx) : s.Quiet (t.cancel c).1 := by
  unfold State.cancel
  dsimp only
  split
  · exact h.toIdle _ _
  · exact h.toIdle _ _
  · exact h.toIdle _ _
  · exact h.toIdle _ _
  · exact h

theorem standbyAll (cue : CueNumber) (cs : List CircuitIx) (h : s.Quiet t) :
    s.Quiet (State.standbyAll cue cs t).1 := by
  induction cs generalizing t with
  | nil => exact h
  | cons c rest ih => exact ih (h.standbyQuiet c _)

theorem goAll (cue : CueNumber) (cs : List CircuitIx) (h : s.Quiet t) : s.Quiet (t.goAll cue cs) := by
  unfold State.goAll
  induction cs generalizing t with
  | nil => exact h
  | cons c rest ih => exact ih (h.goQuiet c _)

theorem autoStandby (h : s.Quiet t) : s.Quiet t.autoStandby.1 := by
  unfold State.autoStandby
  split
  · split
    · exact h.standbyAll _ _
    · exact h
  · exact h

theorem goNext (h : s.Quiet t) : s.Quiet t.goNext.1 := by
  unfold State.goNext
  split
  · exact h
  · split
    · exact h
    · exact ((h.goAll _ _).setCueList _).autoStandby.offerChanges _

theorem standbyNext (h : s.Quiet t) : s.Quiet t.standbyNext.1 := by
  unfold State.standbyNext
  split
  · exact h
  · dsimp only
    split
    all_goals exact (h.standbyAll _ _).offerChanges _

theorem back (h : s.Quiet t) : s.Quiet t.back.1 := by
  unfold State.back
  split
  · exact h
  · exact h.setCueList _

theorem skip (h : s.Quiet t) : s.Quiet t.skip.1 := by
  unfold State.skip
  split
  · exact h
  · exact h.setCueList _

/-! ### Desk requests, answers and lost marks -/

theorem deskReply (h : s.Quiet t) (p : Port) (seq : Byte) (status : Status) :
    s.Quiet (t.deskReply p seq status) := by
  rcases t.deskReply_cases p seq status with e | ⟨-, -, e⟩ <;> rw [e]
  · exact h
  · exact h.setPort _ _

theorem takeDesk (p : Port) (r : DeskRequest) {effect : State → State × Status}
    (he : ∀ u : State, u.Quiet (effect u).1) : s.Quiet (s.takeDesk p r effect) := by
  unfold State.takeDesk
  split
  · rename_i seq wanted r' _
    split
    · have taken : s.Quiet (effect (s.setRequests (s.requests.erase (.desk p seq wanted r)))).1 := by
        refine ((refl s).setRequests _ fun q hq => ?_).trans (he _)
        exact List.mem_erase_of_ne (by rintro rfl; cases hq)
      dsimp only
      split
      · exact taken.deskReply _ _ _
      · exact taken
    · exact refl s
  · exact refl s

theorem takeLostMark (h : s.Quiet t) (p : Port) (lost : Bool) : s.Quiet (t.takeLostMark p lost) := by
  unfold State.takeLostMark
  split
  · exact h.take rfl fun u => (refl u).setCircuits _ fun c hc => by simpa [Circuit.markLost] using hc
  · exact h

end State.Quiet

/-- Dropping a port's answers leaves every other request. -/
theorem mem_dropAnswers {p : Port} {r : Request} (hr : r.answers p = false) (rs : List Request) :
    r ∈ dropAnswers p rs ↔ r ∈ rs := by
  induction rs with
  | nil => rfl
  | cons q rest ih =>
    cases q with
    | lostMark q lost =>
      simp only [dropAnswers]
      split
      · rfl
      · simp [ih]
    | answer q l =>
      by_cases hq : (Request.answer q l).answers p = true
      · have : r ≠ .answer q l := by
          rintro rfl
          rw [hr] at hq
          cases hq
        simp [dropAnswers, hq, ih, this]
      · simp [dropAnswers, hq, ih]
    | _ => simp [dropAnswers, Request.answers, ih]

theorem Circuit.answered_idle {x : Circuit} (p : Port) (l : CrewLamp) (hx : x.state ≠ .idle) :
    (x.answered p l).state ≠ .idle := by
  unfold Circuit.answered
  split
  · dsimp only
    split
    · simp
    · exact hx
  · exact hx

/-! ### Station ports and the trunk -/

namespace State.Quiet

variable {s t : State}

theorem dropPort (h : s.Quiet t) (p : Port) : s.Quiet (t.dropPort p) := by
  have discarded : s.Quiet ((t.setPort p t.ports[p].dropped).setRequests
      (t.requests.map (Request.discardFor p))) := by
    refine (h.setPort p _).setRequests _ fun r hr => ?_
    simp only [List.mem_map, State.setPort_requests]
    constructor
    · rintro ⟨q, hq, rfl⟩
      cases q with
      | desk => cases hr
      | _ => exact hq
    · intro hm
      refine ⟨r, hm, ?_⟩
      cases r with
      | desk => cases hr
      | _ => rfl
  unfold State.dropPort
  exact (((discarded.hand (r := .removePortKeys p) rfl).hand (r := .lostMark p true) rfl).report _ _).suppress _

theorem lostFrame (h : s.Quiet t) (p : Port) (held : Bool) : s.Quiet (t.lostFrame p held) := by
  unfold State.lostFrame
  dsimp only
  split
  · exact h.setPort _ _
  · split <;> exact h.setPort _ _
  · split
    · exact h.setPort _ _
    · exact h.dropPort _

theorem offerKey (h : s.Quiet t) (p : Port) (e : KeyEvent) : s.Quiet (t.offerKey p e) := by
  unfold State.offerKey
  split
  · exact h.enqueue _
  · exact (h.setPort _ _).report _ _

theorem talkEdge (h : s.Quiet t) (p : Port) (before after : BitVec 7) (k : Key) :
    s.Quiet (t.talkEdge p before after k) := by
  unfold State.talkEdge
  dsimp only
  split
  · exact h
  · exact h.offerKey _ _

theorem answerEdge (h : s.Quiet t) (p : Port) (l : CrewLamp) (was is : Bool) :
    s.Quiet (t.answerEdge p l was is) := by
  unfold State.answerEdge
  split
  · exact h.hand rfl
  · exact h

theorem edges (h : s.Quiet t) (p : Port) (before after : BitVec 7) : s.Quiet (t.edges p before after) := by
  have talk (ks : List Key) : s.Quiet (ks.foldl (State.talkEdge p before after) t) := by
    induction ks generalizing t with
    | nil => exact h
    | cons k rest ih => exact ih (h.talkEdge p before after k)
  exact ((talk _).answerEdge _ _ _ _).answerEdge _ _ _ _

theorem deskMessage (h : s.Quiet t) (p : Port) (bytes : List Byte) : s.Quiet (t.deskMessage p bytes) := by
  unfold State.deskMessage
  split
  · dsimp only
    split
    · exact h.hand rfl
    · exact h.deskReply _ _ _
  · exact h

theorem deskByte (h : s.Quiet t) (p : Port) (u : Uplink) : s.Quiet (t.deskByte p u) := by
  unfold State.deskByte
  dsimp only
  split
  · split
    · exact (h.setPort _ _).deskMessage _ _
    · exact h.setPort _ _
  · exact h

theorem goodFrame (h : s.Quiet t) (p : Port) (u : Uplink) : s.Quiet (t.goodFrame p u) := by
  unfold State.goodFrame
  dsimp only
  split
  · exact h.setPort _ _
  · split
    · exact h.setPort _ _
    · exact ((h.setPort _ _).hand rfl).deskByte _ _
  · exact ((h.setPort _ _).edges _ _ _).deskByte _ _

theorem goDown (h : s.Quiet t) (p : Port) : s.Quiet (t.goDown p) := by
  unfold State.goDown
  split
  · exact h.dropPort _
  · exact h.setPort _ _
  · exact h

theorem loseFrame (h : s.Quiet t) (held : Period) : s.Quiet (t.loseFrame held) := by
  unfold State.loseFrame
  dsimp only
  split <;> exact (h.setTrunk _).report _ _

/-- A DATA cell that the open load takes waits among its records (R167). -/
theorem data (h : s.Quiet t) (c : Command) : s.Quiet (t.data c) := by
  unfold State.data
  dsimp only
  split
  · rename_i l hl
    split
    · exact h.reply _
    · rename_i hexp
      refine h.execute fun hs l' hl' => ?_
      cases hl'
      obtain ⟨hrange, hcount⟩ := hs l hl
      refine ⟨hrange, ?_⟩
      simp only [List.length_append, List.length_singleton]
      omega
  all_goals exact h.reply _

theorem handCell (h : s.Quiet t) (cell : List Byte) : s.Quiet (t.handCell cell) := by
  unfold State.handCell
  split
  · unfold State.admitCommand
    dsimp only
    split
    · exact h.setManagement _ rfl
    · exact h.reply _
  · exact h.data _
  all_goals exact h

theorem takeTrunkFrame (h : s.Quiet t) (f : TrunkFrame) : s.Quiet (t.takeTrunkFrame f) := by
  unfold State.takeTrunkFrame
  dsimp only
  split
  · exact (h.setTrunk _).report _ _
  · exact (h.setTrunk _).handCell _
  · exact h.setTrunk _

/-- A frame start keeps all but the deadlines of what the invariants of this family speak of. -/
theorem frameStart (s : State) : s.Quiet s.frameStart where
  xps := s.frameStart_xps
  job := .inl (by rw [State.frameStart_walker])
  keys p k := by rw [State.entry, State.frameStart_walker, State.entry]
  circuits c hc := by
    rw [State.circuitOwns, State.frameStart_requests, State.frameStart_circuits]
    unfold State.circuitOwns at hc
    simpa [Circuit.tick] using hc
  requests r _ := by rw [State.frameStart_requests]
  stored := {
    load := fun hs l hl => by
      rw [State.frameStart_execution] at hl
      cases he : s.management.execution with
      | load l' =>
        rw [he] at hl
        cases hl
        exact hs l' he
      | none | access | softReset =>
        rw [he] at hl
        cases hl
    ram := fun _ => by rw [State.frameStart_directory]; exact .refl }

/-! ### Table RAM -/

theorem accessEnded (h : s.Quiet t) : s.Quiet t.accessEnded := h.setDirectory _ .refl

theorem readPlace (h : s.Quiet t) (i : Place) (upsets : Upsets) : s.Quiet (t.readPlace i upsets) := by
  have fetched : t.directory.ram.Reaches ((t.directory.ram.upsetAll upsets).fetch i).2.1 :=
    (TableRam.Reaches.upsetAll upsets).trans (.fetch i)
  unfold State.readPlace
  dsimp only
  split
  · exact ((h.setDirectory _ fetched).reportAll _).answer _
  · refine ((h.setDirectory _ ?_).reportAll _).answer _
    split
    · exact fetched.trans (.scrub i)
    · exact fetched

theorem access (h : s.Quiet t) (a : Access) (upsets : Upsets) : s.Quiet (t.access a upsets) := by
  refine accessEnded ?_
  cases a with
  | readRecord i => exact h.readPlace i upsets
  | setRegion r =>
    refine (h.setDirectory _ ?_).answer _
    exact .refl
  | setScene c =>
    refine (h.setDirectory _ ?_).answer _
    exact .refl

theorem askPort (h : s.Quiet t) (a : Access) (upsets : Upsets) : s.Quiet (t.askPort a upsets) := by
  unfold State.askPort
  split
  · exact h.access _ _
  · exact h.execute fun _ l hl => by cases hl

end State.Quiet

/-- A record as it is stored has a sound gain (R43). -/
theorem Record.stored_gainSound (r : Record) : r.stored.gainSound := by
  intro hv
  unfold Record.stored at hv ⊢
  split at hv
  · rename_i h
    rw [if_pos h]
    show (BitVec.ofNat 16 512).toNat ≤ 512
    decide
  · rename_i h
    rw [if_neg h]
    simp only [Record.overGain, hv, Bool.true_and, decide_eq_true_eq] at h
    omega

/-- A waiting record of a sound load is written within table RAM, or closes the load (R42, R44). -/
theorem State.writeRecord_quiet {s : State} {l : Load} {r : Record} {rest : List Record}
    (hl : s.management.execution = .load l) (hw : l.waiting = r :: rest) :
    s.Quiet (s.writeRecord l r rest) := by
  have written : s.Quiet (s.setDirectory { s.directory with
      ram := s.directory.ram.write (l.start + l.written) ⟨r.stored, .clean, false⟩ }) :=
    { State.Quiet.refl s with
      stored := ⟨id, fun hs => by
        obtain ⟨hrange, hcount⟩ := hs l hl
        rw [hw, List.length_cons] at hcount
        exact TableRam.Reaches.refl.write (by omega) (.inr r.stored_gainSound)⟩ }
  unfold State.writeRecord State.closeLoad
  dsimp only
  split
  · exact (State.Quiet.refl s).answer _
  · split
    · exact written.answer _
    · refine written.execute fun hs l' hl' => ?_
      cases hl'
      obtain ⟨hrange, hcount⟩ := hs l hl
      rw [hw, List.length_cons] at hcount
      exact ⟨hrange, by dsimp only; omega⟩

end Sys2Proof.Machine
end

section
/-!
PROOFS, one statement for all quiet commands.
-/

namespace Sys2Proof

/-- The quiet commands. The others reset the chip, work on keys or walks, or change the slots. -/
def Instr.quiet : Instr → Bool
  | .pinReset _ | .keyEventTake | .walkStart _ | .walkEnd | .crosspointInstall | .removeKey _ _
  | .removePortKeys _ | .removeCircuit _ | .removeKeysAndCues | .portRowReset _ | .walkerReset | .circuitAbort
  | .softReset | .slotEnable | .slotRetire | .installCrosspoint | .removeCrosspoint | .setGain => false
  | _ => true

namespace Machine

/-- The command completes, and the relation holds between the states before and after it. -/
def Leads (R : State → State → Prop) (i : Instr) : Prop := ∀ s, ∃ t, exec i s = .next t ∧ R s t

open State (Quiet)

/-! ### Commands of the management engine -/

/-- A command that answers what it reads is quiet. -/
theorem quiet_of_read (code : Nat) (read : List Byte → State → Answer) (s : State) :
    s.Quiet (s.beginRead code read) := .begin fun _ => (Quiet.refl s).answer _

theorem quiet_cueCommand {f : CircuitIx → State → State × Status} (hf : ∀ c (u : State), u.Quiet (f c u).1)
    (ps : List Byte) (s : State) : s.Quiet (cueCommand f ps s) := by
  unfold cueCommand
  split
  · exact (Quiet.refl s).answer _
  · exact (hf _ s).answer _

theorem listRequest_cases (sub : Nat) : listRequest sub = State.goNext ∨ listRequest sub = State.standbyNext
    ∨ listRequest sub = State.back ∨ listRequest sub = State.skip
    ∨ listRequest sub = fun s => (s, .bare .badParam) := by
  unfold listRequest
  split <;> simp

theorem quiet_cueNext (ps : List Byte) (s : State) : s.Quiet (cueNext ps s) := by
  refine Quiet.answer ?_ _
  rcases listRequest_cases (byteAt ps 0).toNat with h | h | h | h | h <;> rw [h]
  · exact (Quiet.refl s).goNext
  · exact (Quiet.refl s).standbyNext
  · exact (Quiet.refl s).back
  · exact (Quiet.refl s).skip
  · exact Quiet.refl s

theorem quiet_circuitSetup (ps : List Byte) (s : State) : s.Quiet (circuitSetup ps s) := by
  unfold circuitSetup
  dsimp only
  split
  · split
    · refine ((Quiet.refl s).setCircuit _ _ ?_).answer _
      exact id
    · exact (Quiet.refl s).answer _
  · exact (Quiet.refl s).answer _

theorem quiet_cueListWrite (ps : List Byte) (s : State) : s.Quiet (cueListWrite ps s) := by
  unfold cueListWrite
  dsimp only
  split
  · split
    · exact (Quiet.refl s).answer _
    · exact ((Quiet.refl s).setCueList _).answer _
  · exact (Quiet.refl s).answer _

theorem quiet_cueListTruncate (ps : List Byte) (s : State) : s.Quiet (cueListTruncate ps s) := by
  unfold cueListTruncate
  dsimp only
  split
  · exact (Quiet.refl s).answer _
  · exact ((Quiet.refl s).setCueList _).answer _

theorem quiet_readFaults (ps : List Byte) (s : State) : s.Quiet (readFaults ps s) := by
  unfold readFaults
  dsimp only
  split <;> exact ((Quiet.refl s).setFaultLog _).answer _

theorem quiet_setLock (next : LockState → LockState) (ps : List Byte) (s : State) :
    s.Quiet (setLock next ps s) := by
  refine ((Quiet.refl s).setManagement _ ?_).answer _
  rfl

theorem quiet_portSetup (ps : List Byte) (s : State) : s.Quiet (portSetup ps s) := by
  unfold portSetup
  split
  · refine ((Quiet.setPort ?_ _ _)).answer _
    split
    · exact Quiet.refl s
    · exact (Quiet.refl s).goDown _
  · exact (Quiet.refl s).answer _

theorem quiet_directorySetup (ps : List Byte) (s : State) : s.Quiet (directorySetup ps s) := by
  unfold directorySetup
  split
  · exact (Quiet.refl s).answer _
  · exact (Quiet.refl s).askPort _ _

theorem quiet_selectScene (ps : List Byte) (s : State) : s.Quiet (selectScene ps s) := by
  unfold selectScene
  split
  · exact (Quiet.refl s).answer _
  · exact (Quiet.refl s).askPort _ _

theorem quiet_readRecord (upsets : Upsets) (ps : List Byte) (s : State) :
    s.Quiet (readRecord upsets ps s) := by
  unfold readRecord
  split
  · exact (Quiet.refl s).answer _
  · exact (Quiet.refl s).askPort _ _

/-- A load that opens lies within table RAM, and expects all of its records (R166). -/
theorem quiet_writeRecords (ps : List Byte) (s : State) : s.Quiet (writeRecords ps s) := by
  unfold writeRecords
  dsimp only
  split
  · exact (Quiet.refl s).answer _
  · refine (Quiet.refl s).execute fun _ l hl => ?_
    cases hl
    exact ⟨by dsimp only; omega, by simp⟩

theorem quiet_retryKey (ps : List Byte) (s : State) : s.Quiet (retryKey ps s) := by
  unfold retryKey
  split
  · split
    · split
      · exact ((Quiet.refl s).enqueue _).answer _
      · exact (Quiet.refl s).answer _
    · exact (Quiet.refl s).answer _
  · exact (Quiet.refl s).answer _

/-! ### Events -/

theorem quiet_trunkArrival (bytes : List Byte) : Leads State.Quiet (.trunkArrival bytes) := by
  refine fun s => ⟨_, rfl, ?_⟩
  split
  · exact Quiet.refl s
  · exact (Quiet.refl s).setTrunk _
  · exact (Quiet.refl s).setTrunk _
  · exact (Quiet.refl s).setTrunk _
  · exact (Quiet.refl s).setTrunk _
  · exact (Quiet.refl s).takeTrunkFrame _
  · exact (Quiet.refl s).loseFrame _

theorem quiet_missingFrame : Leads State.Quiet .missingFrame := by
  refine fun s => ⟨_, rfl, ?_⟩
  split
  · exact Quiet.refl s
  · exact (Quiet.refl s).setTrunk _
  · exact (Quiet.refl s).loseFrame _

theorem quiet_linkReport (p : Port) (report : UplinkReport) : Leads State.Quiet (.linkReport p report) := by
  refine fun s => ⟨_, rfl, ?_⟩
  split
  · exact Quiet.refl s
  · split
    · exact (Quiet.refl s).lostFrame _ _
    · split
      · exact (Quiet.refl s).goodFrame _ _
      · exact (Quiet.refl s).lostFrame _ _

/-- A BUSY request marks the walk of its key, or the lamp of its key (R73, R77). -/
theorem quiet_busyLampRequest (p : Port) (k : Key) : Leads State.Quiet (.busyLampRequest p k) := by
  refine fun s => ⟨_, rfl, (Quiet.refl s).take rfl fun u => ?_⟩
  have lamp : u.Quiet (u.setEntry p k (u.entry p k).busy) := by
    refine (Quiet.refl u).setEntry _ _ _ ?_
    unfold KeyEntry.busy
    split <;> rfl
  split
  · rename_i w rest hj
    split
    · exact (Quiet.refl u).setWalker _ (.inr ⟨w, _, rest, hj, rfl, rfl, rfl, rfl, fun _ => rfl⟩) fun _ _ => rfl
    · exact lamp
  · exact lamp
  · exact lamp

/-- A request that is watched is no answer of a port. -/
theorem Request.answers_of_watched {r : Request} {p : Port} (h : r.watched = true) : r.answers p = false := by
  cases r with
  | answer q l => cases h
  | _ => rfl

theorem quiet_lostMarkSet (p : Port) : Leads State.Quiet (.lostMarkSet p) := by
  refine fun s => ⟨_, rfl, ?_⟩
  split
  · refine ((Quiet.refl s).setRequests _ fun r hr => mem_dropAnswers ?_ _).takeLostMark _ _
    exact Request.answers_of_watched hr
  · exact Quiet.refl s

theorem quiet_answer (p : Port) (l : CrewLamp) : Leads State.Quiet (.answer p l) := by
  refine fun s => ⟨_, rfl, ?_⟩
  split
  · refine (Quiet.refl s).take rfl fun u => ((Quiet.refl u).setCircuits _ fun c hc => ?_).offerChanges _
    simpa using Circuit.answered_idle p l hc
  · exact Quiet.refl s

theorem quiet_standbyTimerExpiry (c : CircuitIx) : Leads State.Quiet (.standbyTimerExpiry c) := by
  refine fun s => ⟨_, rfl, ?_⟩
  dsimp only
  split
  · exact ((Quiet.refl s).setCircuit _ _ fun _ => by simp).offerCueEvent _ _
  · exact Quiet.refl s

theorem quiet_goHoldExpiry (c : CircuitIx) : Leads State.Quiet (.goHoldExpiry c) := by
  refine fun s => ⟨_, rfl, ?_⟩
  dsimp only
  split
  · split
    · exact ((Quiet.refl s).setCircuit _ _ fun _ => by simp [Circuit.enterStandby]).offerCueEvent _ _
    · exact (Quiet.refl s).toIdle _ _
  · exact Quiet.refl s

theorem quiet_faultReport (kind : FaultKind) (loc : Location) : Leads State.Quiet (.faultReport kind loc) := by
  have created (u : State) (overflow : Bool) (log : FaultLog) : u.Quiet (u.newFault kind loc overflow log) := by
    unfold State.newFault
    dsimp only
    split
    · exact ((Quiet.refl u).setFaultLog _).setCueList _
    · exact (((Quiet.refl u).setFaultLog _).setCueList _).offer _
  refine fun s => ⟨_, rfl, (Quiet.refl s).take rfl fun u => ?_⟩
  unfold State.logFault
  dsimp only
  split
  · exact (Quiet.refl u).setFaultLog _
  · split
    · exact created _ _ _
    · split
      · exact created _ _ _
      · exact (Quiet.refl u).setFaultLog _

theorem quiet_tablePortGrant (upsets : Upsets) : Leads State.Quiet (.tablePortGrant upsets) := by
  refine fun s => ⟨_, rfl, ?_⟩
  split
  · split
    · exact (Quiet.refl s).access _ _
    · exact Quiet.refl s
  all_goals exact Quiet.refl s

theorem quiet_recordWrite : Leads State.Quiet .recordWrite := by
  refine fun s => ⟨_, rfl, ?_⟩
  split
  · split
    · split
      · exact (State.writeRecord_quiet ‹_› ‹_›).accessEnded
      · exact Quiet.refl s
    · exact Quiet.refl s
  all_goals exact Quiet.refl s

theorem quiet_loadTimerExpiry : Leads State.Quiet .loadTimerExpiry := by
  refine fun s => ⟨_, rfl, ?_⟩
  split
  · split
    · exact ((Quiet.refl s).answer _).report _ _
    · exact Quiet.refl s
  all_goals exact Quiet.refl s

theorem quiet_ramInitialisationEnd : Leads State.Quiet .ramInitialisationEnd := by
  refine fun s => ⟨_, rfl, ?_⟩
  split
  · exact (Quiet.refl s).setDirectory _ .clear
  · exact Quiet.refl s

theorem quiet_portResync (p : Port) : Leads State.Quiet (.portResync p) := by
  refine fun s => ⟨_, rfl, (Quiet.refl s).take rfl fun u => Quiet.resetTaken ?_⟩
  split
  · exact (Quiet.refl u).setPort _ _
  · exact Quiet.refl u

theorem quiet_statePost (p : Port) : Leads State.Quiet (.statePost p) := by
  refine fun s => ⟨_, rfl, ?_⟩
  dsimp only
  split
  · exact ((Quiet.refl s).setPort _ _).enqueue _
  · exact Quiet.refl s

theorem quiet_frameStart : Leads State.Quiet .frameStart := by
  refine fun s => ⟨_, rfl, ?_⟩
  split
  · exact Quiet.frameStart s
  · exact Quiet.refl s

theorem quiet_unknownCommand : Leads State.Quiet .unknownCommand := by
  refine fun s => ⟨_, rfl, ?_⟩
  split
  · exact Quiet.refl s
  · split
    · exact (Quiet.refl s).answer _
    · exact Quiet.refl s

/-! ### All of them -/

/-- Every quiet command is a quiet step. -/
theorem leads_quiet {i : Instr} (hi : i.quiet = true) : Leads State.Quiet i := by
  cases i with
  | ramInitialisationEnd => exact quiet_ramInitialisationEnd
  | frameStart => exact quiet_frameStart
  | trunkArrival bytes => exact quiet_trunkArrival bytes
  | missingFrame => exact quiet_missingFrame
  | linkReport p report => exact quiet_linkReport p report
  | statePost p => exact quiet_statePost p
  | busyLampRequest p k => exact quiet_busyLampRequest p k
  | lostMarkSet p => exact quiet_lostMarkSet p
  | lostMarkClear p => exact fun s => ⟨_, rfl, (Quiet.refl s).takeLostMark _ _⟩
  | standbyRequest p c => exact fun s => ⟨_, rfl, .takeDesk _ _ fun u => (Quiet.refl u).standby _ _⟩
  | goRequest p c => exact fun s => ⟨_, rfl, .takeDesk _ _ fun u => (Quiet.refl u).go _ _⟩
  | cancelRequest p c => exact fun s => ⟨_, rfl, .takeDesk _ _ fun u => (Quiet.refl u).cancel _⟩
  | answer p l => exact quiet_answer p l
  | standbyTimerExpiry c => exact quiet_standbyTimerExpiry c
  | goHoldExpiry c => exact quiet_goHoldExpiry c
  | goNext p => exact fun s => ⟨_, rfl, .takeDesk _ _ fun u => (Quiet.refl u).goNext⟩
  | standbyNext p => exact fun s => ⟨_, rfl, .takeDesk _ _ fun u => (Quiet.refl u).standbyNext⟩
  | back p => exact fun s => ⟨_, rfl, .takeDesk _ _ fun u => (Quiet.refl u).back⟩
  | skip p => exact fun s => ⟨_, rfl, .takeDesk _ _ fun u => (Quiet.refl u).skip⟩
  | unknownCommand => exact quiet_unknownCommand
  | identify => exact fun s => ⟨_, rfl, quiet_of_read _ _ s⟩
  | portResync p => exact quiet_portResync p
  | portSetup => exact fun s => ⟨_, rfl, .begin fun ps => quiet_portSetup ps s⟩
  | portStatus => exact fun s => ⟨_, rfl, quiet_of_read _ _ s⟩
  | laneMap => exact fun s => ⟨_, rfl, .begin fun _ => ((Quiet.refl s).setTrunk _).answer _⟩
  | readSlot => exact fun s => ⟨_, rfl, quiet_of_read _ _ s⟩
  | directorySetup => exact fun s => ⟨_, rfl, .begin fun ps => quiet_directorySetup ps s⟩
  | writeRecords => exact fun s => ⟨_, rfl, .begin fun ps => quiet_writeRecords ps s⟩
  | readRecord upsets => exact fun s => ⟨_, rfl, .begin fun ps => quiet_readRecord upsets ps s⟩
  | selectScene => exact fun s => ⟨_, rfl, .begin fun ps => quiet_selectScene ps s⟩
  | tablePortGrant upsets => exact quiet_tablePortGrant upsets
  | recordWrite => exact quiet_recordWrite
  | loadTimerExpiry => exact quiet_loadTimerExpiry
  | retryKey => exact fun s => ⟨_, rfl, .begin fun ps => quiet_retryKey ps s⟩
  | circuitSetup => exact fun s => ⟨_, rfl, .begin fun ps => quiet_circuitSetup ps s⟩
  | readCircuit => exact fun s => ⟨_, rfl, quiet_of_read _ _ s⟩
  | cueStandby =>
    exact fun s => ⟨_, rfl, .begin fun ps => quiet_cueCommand (fun _ u => (Quiet.refl u).standby _ _) ps s⟩
  | cueGo => exact fun s => ⟨_, rfl, .begin fun ps => quiet_cueCommand (fun _ u => (Quiet.refl u).go _ _) ps s⟩
  | cueCancel => exact fun s => ⟨_, rfl, .begin fun ps => quiet_cueCommand (fun _ u => (Quiet.refl u).cancel _) ps s⟩
  | cueNext => exact fun s => ⟨_, rfl, .begin fun ps => quiet_cueNext ps s⟩
  | cueListWrite => exact fun s => ⟨_, rfl, .begin fun ps => quiet_cueListWrite ps s⟩
  | cueListTruncate => exact fun s => ⟨_, rfl, .begin fun ps => quiet_cueListTruncate ps s⟩
  | cueCursor => exact fun s => ⟨_, rfl, .begin fun _ => ((Quiet.refl s).setCueList _).answer _⟩
  | readCueList => exact fun s => ⟨_, rfl, quiet_of_read _ _ s⟩
  | readLastCue => exact fun s => ⟨_, rfl, quiet_of_read _ _ s⟩
  | readFaults => exact fun s => ⟨_, rfl, .begin fun ps => quiet_readFaults ps s⟩
  | clearFaults => exact fun s => ⟨_, rfl, .begin fun _ => ((Quiet.refl s).setFaultLog _).answer _⟩
  | lockShow => exact fun s => ⟨_, rfl, .begin fun ps => quiet_setLock _ ps s⟩
  | unlockShow => exact fun s => ⟨_, rfl, .begin fun ps => quiet_setLock _ ps s⟩
  | freezeShow => exact fun s => ⟨_, rfl, .begin fun ps => quiet_setLock _ ps s⟩
  | faultReport kind loc => exact quiet_faultReport kind loc
  | _ => cases hi

/-- To show a statement of every command: of the quiet ones together, and of each of the others. -/
theorem forall_instr {P : Instr → Prop} (quiet : ∀ i, i.quiet = true → P i)
    (pinReset : ∀ straps, P (.pinReset straps)) (keyEventTake : P .keyEventTake)
    (walkStart : ∀ upsets, P (.walkStart upsets)) (walkEnd : P .walkEnd)
    (crosspointInstall : P .crosspointInstall) (removeKey : ∀ p k, P (.removeKey p k))
    (removePortKeys : ∀ p, P (.removePortKeys p)) (removeCircuit : ∀ c, P (.removeCircuit c))
    (removeKeysAndCues : P .removeKeysAndCues) (portRowReset : ∀ p, P (.portRowReset p))
    (walkerReset : P .walkerReset) (circuitAbort : P .circuitAbort) (softReset : P .softReset)
    (slotEnable : P .slotEnable) (slotRetire : P .slotRetire) (installCrosspoint : P .installCrosspoint)
    (removeCrosspoint : P .removeCrosspoint) (setGain : P .setGain) : ∀ i, P i := by
  intro i
  cases i with
  | pinReset straps => exact pinReset straps
  | keyEventTake => exact keyEventTake
  | walkStart upsets => exact walkStart upsets
  | walkEnd => exact walkEnd
  | crosspointInstall => exact crosspointInstall
  | removeKey p k => exact removeKey p k
  | removePortKeys p => exact removePortKeys p
  | removeCircuit c => exact removeCircuit c
  | removeKeysAndCues => exact removeKeysAndCues
  | portRowReset p => exact portRowReset p
  | walkerReset => exact walkerReset
  | circuitAbort => exact circuitAbort
  | softReset => exact softReset
  | slotEnable => exact slotEnable
  | slotRetire => exact slotRetire
  | installCrosspoint => exact installCrosspoint
  | removeCrosspoint => exact removeCrosspoint
  | setGain => exact setGain
  | _ => exact quiet _ rfl

/-- A property that does not see the queue of waiting commands is kept where every command keeps it. -/
theorem kept_of_leads {P : State → Prop} (hp : ∀ s q, P s → P (s.setPending q))
    (h : ∀ i, Leads (fun s t => P s → P t) i) : Kept P := by
  intro s t hst hs
  unfold step at hst
  split at hst
  · cases hst
    exact hs
  · rename_i i rest _
    obtain ⟨t', ht', hk⟩ := h i (s.setPending rest)
    rw [ht'] at hst
    cases hst
    exact hk (hp s rest hs)

end Machine

end Sys2Proof
end

section
/-!
PROOFS, the crosspoint set under every command: what holds of each LIVE connection, and that the set stays sound
(R3 to R6) with sound gains (R16, R18, R43).
-/

namespace Sys2Proof.Machine

/-! ### What holds of each LIVE connection -/

/-- A property of the connection of each LIVE slot. -/
def CrosspointSet.Each (x : CrosspointSet) (P : Connection → Prop) : Prop :=
  ∀ (i : SlotIx) (c : Connection), x.slots[i] = .live c → P c

/-- What is left of a connection when owners leave. -/
def Connection.left (c : Connection) (gone : Owner → Bool) : Connection :=
  { c with owners := c.owners.filter fun o => !gone o, pinned := pinnedBy (c.owners.filter fun o => !gone o) }

/-- A slot that is LIVE after a removal was LIVE before it, with the same connection or one that lost owners. -/
theorem Slot.remove_eq_live {v : Slot} {gone : Owner → Bool} {c : Connection} (h : v.remove gone = .live c) :
    (v = .live c ∧ ∀ o ∈ c.owners, gone o = false)
      ∨ ∃ d, v = .live d ∧ (∃ o ∈ d.owners, gone o = false) ∧ c = d.left gone := by
  cases v with
  | live d =>
    rcases Slot.remove_live gone d with ⟨hn, e⟩ | ⟨-, -, e⟩ | ⟨-, hl, e⟩ <;> rw [e] at h <;> cases h
    · exact .inl ⟨rfl, hn⟩
    · exact .inr ⟨d, rfl, hl, rfl⟩
  | lockedOut | free | retired => cases h

namespace CrosspointSet

variable {x y : CrosspointSet} {P : Connection → Prop}

theorem Each.setSlot (h : x.Each P) {i : SlotIx} {v : Slot} (hv : ∀ c, v = .live c → P c) :
    (x.setSlot i v).Each P := by
  intro j c hc
  rw [setSlot_get] at hc
  split at hc
  · exact hv c hc
  · exact h j c hc

theorem Each.fewer (h : x.Each P) (hy : ∀ (i : SlotIx) (c : Connection), y.slots[i] = .live c → x.slots[i] = .live c) :
    y.Each P := fun i c hc => h i c (hy i c hc)

theorem Each.owners (h : x.Each P)
    (hy : ∀ i : SlotIx, y.slots[i] = x.slots[i] ∨ ∃ gone, y.slots[i] = x.slots[i].remove gone)
    (hP : ∀ c gone, P c → (∃ o ∈ c.owners, gone o = false) → P (c.left gone)) : y.Each P := by
  intro i c hc
  rcases hy i with e | ⟨gone, e⟩ <;> rw [e] at hc
  · exact h i c hc
  · rcases Slot.remove_eq_live hc with ⟨e, -⟩ | ⟨d, e, hl, rfl⟩
    · exact h i c e
    · exact hP d gone (h i d e) hl

theorem Each.remove (h : x.Each P) (gone : Owner → Bool)
    (hP : ∀ c gone, P c → (∃ o ∈ c.owners, gone o = false) → P (c.left gone)) : (x.remove gone).Each P :=
  h.owners (fun i => .inr ⟨gone, x.remove_get gone i⟩) hP

/-- An install keeps what holds of its connection and of one that gains its owner. -/
theorem Each.install {s : State} {r : Install} (h : s.xps.Each P)
    (hjoin : ∀ c, P c → c.matches r = true → (∀ o ∈ c.owners, o.same r.owner = false) → c.owners.length < 4 →
      P { c with owners := c.owners ++ [r.owner], pinned := pinnedBy (c.owners ++ [r.owner]) })
    (hnew : (r.source.isChannel && r.dest.isChannel) = false → P (r.connection s.trunk.clock)) :
    (s.install r).1.xps.Each P := by
  rcases s.install_xps r with e | ⟨i, c, hc, hm, ho, hl, e⟩ | ⟨hch, -, i, p, e⟩ <;> rw [e]
  · exact h
  · exact h.setSlot fun d hd => by cases hd; exact hjoin c (h i c hc) hm ho hl
  · have := h.setSlot (i := i) (v := .live (r.connection s.trunk.clock)) fun d hd => by cases hd; exact hnew hch
    exact this

/-! ### No two LIVE slots with one connection (R4) -/

/-- Slots that keep source, destination and class stay distinct. -/
theorem distinct.refine (h : x.distinct) (hy : ∀ (i : SlotIx) (c : Connection), y.slots[i] = .live c →
    ∃ d, x.slots[i] = .live d ∧ d.source = c.source ∧ d.dest = c.dest ∧ d.cls = c.cls) : y.distinct := by
  intro i j a b ha hb hs hd hk
  obtain ⟨a', ha', has, had, hak⟩ := hy i a ha
  obtain ⟨b', hb', hbs, hbd, hbk⟩ := hy j b hb
  exact h i j a' b' ha' hb' (by rw [has, hs, hbs]) (by rw [had, hd, hbd]) (by rw [hak, hk, hbk])

theorem distinct.install {s : State} (h : s.xps.distinct) (r : Install) : (s.install r).1.xps.distinct := by
  rcases s.install_xps r with e | ⟨i, c, hc, -, -, -, e⟩ | ⟨-, hm, i, p, e⟩ <;> rw [e]
  · exact h
  · refine h.refine fun j d hd => ?_
    rw [setSlot_get] at hd
    split at hd
    · rename_i hj
      subst hj
      cases hd
      exact ⟨c, hc, rfl, rfl, rfl⟩
    · exact ⟨d, hd, rfl, rfl, rfl⟩
  · have other : ∀ (j : SlotIx) (d : Connection), s.xps.slots[j] = .live d →
        ¬ (d.source = r.source ∧ d.dest = r.dest ∧ d.cls = r.cls) := fun j d hd => by
      rw [← Connection.matches_iff, matching_none.1 hm j d hd]
      decide
    intro j k a b ha hb hs hd hk
    have at' (j : SlotIx) (a : Connection)
        (ha : (s.xps.setSlot i (.live (r.connection s.trunk.clock))).slots[j] = .live a) :
        j = i ∧ a = r.connection s.trunk.clock ∨ j ≠ i ∧ s.xps.slots[j] = .live a := by
      rw [setSlot_get] at ha
      split at ha
      · cases ha
        exact .inl ⟨‹_›, rfl⟩
      · exact .inr ⟨‹_›, ha⟩
    rcases at' j a ha with ⟨hj, rfl⟩ | ⟨-, ha⟩ <;> rcases at' k b hb with ⟨hk', rfl⟩ | ⟨-, hb⟩
    · rw [hj, hk']
    · exact absurd ⟨hs.symm, hd.symm, hk.symm⟩ (other k b hb)
    · exact absurd ⟨hs, hd, hk⟩ (other j a ha)
    · exact h j k a b ha hb hs hd hk

/-! ### Changes that keep the set sound -/

/-- The changes that commands make to the crosspoint set: LIVE slots cease or stay, owners leave, an install is
taken, a gain is set. `G` is what makes the gains sound that come from elsewhere. -/
inductive Changes (G : Prop) (x : CrosspointSet) : CrosspointSet → Prop
  | refl : Changes G x x
  | fewer {y z : CrosspointSet} (h : Changes G x y)
      (hz : ∀ (i : SlotIx) (c : Connection), z.slots[i] = .live c → y.slots[i] = .live c) : Changes G x z
  | owners {y z : CrosspointSet} (h : Changes G x y)
      (hz : ∀ i : SlotIx, z.slots[i] = y.slots[i] ∨ ∃ gone, z.slots[i] = y.slots[i].remove gone) : Changes G x z
  | install {s : State} (h : Changes G x s.xps) (r : Install) (hr : G → r.gain ≤ Config.gainTop) :
      Changes G x (s.install r).1.xps
  | gain {y : CrosspointSet} (h : Changes G x y) {i : SlotIx} {c : Connection} (hc : y.slots[i] = .live c)
      {g : Nat} (hg : g ≤ Config.gainTop) : Changes G x (y.setSlot i (.live { c with gain := g }))

variable {G : Prop}

theorem Changes.trans {z : CrosspointSet} (h : Changes G x y) (h' : Changes G y z) : Changes G x z := by
  induction h' with
  | refl => exact h
  | fewer _ hz ih => exact ih.fewer hz
  | owners _ hz ih => exact ih.owners hz
  | install _ r hr ih => exact ih.install r hr
  | gain _ hc hg ih => exact ih.gain hc hg

theorem Changes.remove (h : Changes G x y) (gone : Owner → Bool) : Changes G x (y.remove gone) :=
  h.owners fun i => .inr ⟨gone, y.remove_get gone i⟩

theorem Changes.same (h : Changes G x y) {z : CrosspointSet} (hz : z.slots = y.slots) : Changes G x z :=
  h.fewer fun _ _ hc => hz ▸ hc

/-- With sound gains coming in, the gains of the slots stay sound. -/
theorem Changes.gains (h : Changes G x y) (hG : G) (hx : x.Each fun c => c.gain ≤ Config.gainTop) :
    y.Each fun c => c.gain ≤ Config.gainTop := by
  induction h with
  | refl => exact hx
  | fewer _ hz ih => exact ih.fewer hz
  | owners _ hz ih => exact ih.owners hz fun _ _ h _ => h
  | install _ r hr ih => exact ih.install (fun _ h _ _ _ => h) fun _ => hr hG
  | gain _ hc hg ih => exact ih.setSlot fun c hc => by cases hc; exact hg

end CrosspointSet

/-- A connection that has lost owners, one being left, obeys R3 to R5. -/
theorem Connection.sound.left {c : Connection} (h : c.sound) (gone : Owner → Bool)
    (hl : ∃ o ∈ c.owners, gone o = false) : (c.left gone).sound := by
  obtain ⟨hch, -, hfour, hpair, -⟩ := h
  refine ⟨hch, ?_, (List.length_filter_le _ _).trans hfour, hpair.filter _, rfl⟩
  obtain ⟨o, ho, hg⟩ := hl
  exact List.length_pos_of_mem (a := o) (List.mem_filter.2 ⟨ho, by simp [hg]⟩)

/-- A connection that a further owner joins obeys R3 to R5. -/
theorem Connection.sound.join {c : Connection} (h : c.sound) {o : Owner}
    (hnew : ∀ a ∈ c.owners, a.same o = false) (hl : c.owners.length < 4) :
    ({ c with owners := c.owners ++ [o], pinned := pinnedBy (c.owners ++ [o]) } : Connection).sound := by
  obtain ⟨hch, -, -, hpair, -⟩ := h
  refine ⟨hch, by simp, by simp; omega, ?_, rfl⟩
  exact List.pairwise_append.2 ⟨hpair, List.pairwise_singleton _ _, fun a ha b hb => by
    rw [List.mem_singleton.1 hb]
    exact hnew a ha⟩

theorem Install.connection_sound {r : Install} (hch : (r.source.isChannel && r.dest.isChannel) = false)
    (clock : Stamp) : (r.connection clock).sound := by
  refine ⟨fun ⟨h1, h2⟩ => ?_, by simp [Install.connection], by simp [Install.connection],
    List.pairwise_singleton _ _, rfl⟩
  have h1 : r.source.isChannel = true := h1
  have h2 : r.dest.isChannel = true := h2
  rw [h1, h2] at hch
  cases hch

/-- The changes keep the set sound (R3 to R6). -/
theorem CrosspointSet.Changes.sound {G : Prop} {x y : CrosspointSet} (h : Changes G x y) (hx : x.sound) :
    y.sound := by
  induction h with
  | refl => exact hx
  | fewer _ hz ih =>
    exact ⟨CrosspointSet.Each.fewer ih.1 hz, ih.2.refine fun i c hc => ⟨c, hz i c hc, rfl, rfl, rfl⟩⟩
  | owners _ hz ih =>
    refine ⟨CrosspointSet.Each.owners ih.1 hz fun c gone h hl => h.left gone hl, ih.2.refine fun i c hc => ?_⟩
    rcases hz i with e | ⟨gone, e⟩ <;> rw [e] at hc
    · exact ⟨c, hc, rfl, rfl, rfl⟩
    · rcases Slot.remove_eq_live hc with ⟨e, -⟩ | ⟨d, e, -, rfl⟩
      · exact ⟨c, e, rfl, rfl, rfl⟩
      · exact ⟨d, e, rfl, rfl, rfl⟩
  | install _ r _ ih =>
    exact ⟨CrosspointSet.Each.install ih.1 (fun _ h _ ho hl => h.join ho hl)
      (fun hch => Install.connection_sound hch _), ih.2.install r⟩
  | gain _ hc _ ih =>
    have hs := ih.1 _ _ hc
    refine ⟨CrosspointSet.Each.setSlot ih.1 fun d hd => by cases hd; exact hs, ih.2.refine fun j d hd => ?_⟩
    rw [CrosspointSet.setSlot_get] at hd
    split at hd
    · rename_i hj
      subst hj
      cases hd
      exact ⟨_, hc, rfl, rfl, rfl⟩
    · exact ⟨d, hd, rfl, rfl, rfl⟩

end Sys2Proof.Machine
end

section
/-!
PROOFS, the loads, table RAM, gains and slots under every command: `State.Moved` says what a step does to them, and
every command is such a step.
-/

namespace Sys2Proof.Machine

open State (Quiet)
open CrosspointSet (Changes)

/-! ### Handling keys -/

/-- The walker handles keys: their entries and the call counts change, and owners leave the slots. -/
structure State.Handles (s t : State) : Prop where
  xps : ∀ G, Changes G s.xps t.xps
  abandoned : t.xps.abandoned = s.xps.abandoned
  job : t.walker.job = s.walker.job
  others : t = (s.setXps t.xps).setWalker t.walker

namespace State.Handles

variable {s t u : State}

theorem refl (s : State) : s.Handles s := ⟨fun _ => .refl, rfl, rfl, rfl⟩

theorem trans (h : s.Handles t) (h' : t.Handles u) : s.Handles u where
  xps G := (h.xps G).trans (h'.xps G)
  abandoned := h'.abandoned.trans h.abandoned
  job := h'.job.trans h.job
  others := by
    have hu := h'.others
    rw [h.others] at hu
    exact hu

theorem setEntry (h : s.Handles t) (p : Port) (k : Key) (e : KeyEntry) : s.Handles (t.setEntry p k e) :=
  h.trans ⟨fun _ => .refl, rfl, rfl, rfl⟩

theorem of_setXps (t : State) (x : CrosspointSet) (w : Walker) (hx : ∀ G, Changes G t.xps x)
    (ha : x.abandoned = t.xps.abandoned) (hj : w.job = t.walker.job) : t.Handles ((t.setXps x).setWalker w) :=
  ⟨hx, ha, hj, rfl⟩

theorem removeKey (h : s.Handles t) (p : Port) (k : Key) (swallow : Bool) : s.Handles (t.removeKey p k swallow) := by
  rw [State.removeKey_eq]
  refine h.trans (setEntry (of_setXps t _ _ (fun _ => ?_) ?_ ?_) _ _ _)
  · exact Changes.refl.remove _
  · exact CrosspointSet.remove_abandoned _ _
  · rfl

theorem press (h : s.Handles t) (p : Port) (k : Key) (stamp : Stamp) : s.Handles (t.press p k stamp).1 := by
  unfold State.press
  dsimp only
  split
  · exact h.setEntry _ _ _
  · exact h.setEntry _ _ _
  · exact h.setEntry _ _ _
  · exact h
  · exact h.removeKey _ _ _

theorem releaseHeld (h : s.Handles t) (p : Port) (k : Key) (stamp : Stamp) :
    s.Handles (t.releaseHeld p k stamp).1 := by
  unfold State.releaseHeld
  dsimp only
  split
  · exact h.removeKey _ _ _
  · exact h.setEntry _ _ _

theorem release (h : s.Handles t) (p : Port) (k : Key) (stamp : Stamp) : s.Handles (t.release p k stamp).1 := by
  unfold State.release
  dsimp only
  split
  · exact h.setEntry _ _ _
  · split
    · exact h.releaseHeld _ _ _
    · exact h.setEntry _ _ _
    · exact h.setEntry _ _ _
    · exact h
    · exact h

theorem applyLevel (h : s.Handles t) (l : KeyLevel) : s.Handles (t.applyLevel l).1 := by
  unfold State.applyLevel
  dsimp only
  split
  · split
    · split
      · exact h
      · exact h.press _ _ _
    all_goals exact h
  · split
    · exact h.releaseHeld _ _ _
    all_goals exact h.setEntry _ _ _

theorem raiseCall (h : s.Handles t) (p : Port) (k : Key) (x : Hit) : s.Handles (t.raiseCall p k x) := by
  unfold State.raiseCall
  split
  · exact h.trans ⟨fun _ => .refl, rfl, rfl, rfl⟩
  · exact h

/-- Making good the CALL hits that stand first leaves hits at the end of the list, and no success is lost. -/
theorem settleCalls (tag : Tag) (hs : List Hit) (ok : Bool) (h : s.Handles t) :
    s.Handles (State.settleCalls tag hs ok t).1 ∧ (State.settleCalls tag hs ok t).2.1 <:+ hs
      ∧ (ok = true → (State.settleCalls tag hs ok t).2.2 = true) := by
  induction hs generalizing t ok with
  | nil => exact ⟨h, List.suffix_refl _, id⟩
  | cons x rest ih =>
    unfold State.settleCalls
    split
    · cases tag with
      | key p k =>
        obtain ⟨h1, h2, h3⟩ := ih true (h.raiseCall p k x)
        exact ⟨h1, h2.trans (List.suffix_cons _ _), fun _ => h3 rfl⟩
      | cue c =>
        obtain ⟨h1, h2, h3⟩ := ih ok h
        exact ⟨h1, h2.trans (List.suffix_cons _ _), h3⟩
    · exact ⟨h, List.suffix_refl _, id⟩

end State.Handles

/-- After the levels of a STATE the walker has no walk in flight. -/
theorem State.applyLevels_eq (ls : List KeyLevel) (s : State) :
    ∃ u j, s.Handles u ∧ j.walk? = none ∧ s.applyLevels ls = u.setJob j := by
  induction ls generalizing s with
  | nil => exact ⟨s, .idle, .refl s, rfl, rfl⟩
  | cons l rest ih =>
    have h1 := (State.Handles.refl s).applyLevel l
    unfold State.applyLevels
    dsimp only
    split
    · obtain ⟨u, j, hu, hj, e⟩ := ih (s.applyLevel l).1
      exact ⟨u, j, h1.trans hu, hj, e⟩
    · exact ⟨_, _, h1, rfl, rfl⟩

theorem State.workOn_eq (r : State × KeyWork) : ∃ j, j.walk? = none ∧ State.workOn r = r.1.setJob j := by
  unfold State.workOn
  split
  · exact ⟨_, rfl, rfl⟩
  · exact ⟨_, rfl, rfl⟩

/-- An event is skipped, or handled with no walk in flight after it. -/
theorem State.handle_eq (e : KeyEvent) (s : State) :
    s.handle e = s ∨ ∃ u j, s.Handles u ∧ j.walk? = none ∧ s.handle e = u.setJob j := by
  have worked (r : State × KeyWork) (hr : s.Handles r.1) :
      ∃ u j, s.Handles u ∧ j.walk? = none ∧ State.workOn r = u.setJob j := by
    obtain ⟨j, hj, h⟩ := State.workOn_eq r
    exact ⟨_, j, hr, hj, h⟩
  cases e <;> unfold State.handle <;> dsimp only <;> split
  case press.isTrue => exact .inr (worked _ ((Handles.refl s).press _ _ _))
  case release.isTrue => exact .inr (worked _ ((Handles.refl s).release _ _ _))
  case state.isTrue => exact .inr (s.applyLevels_eq _)
  case cueOpen.isFalse => exact .inr (worked _ (Handles.refl s))
  case retry.isTrue => exact .inr (worked _ (Handles.refl s))
  all_goals exact .inl rfl

theorem Job.hits_of_walk {j : Job} (h : j.walk? = none) : j.hits = [] := by
  simp [Job.hits, h]

/-! ### Loads, table RAM, gains and slots -/

/-- The loads, table RAM and every gain are sound. -/
structure State.GainsKept (s : State) : Prop where
  load : s.loadSound
  wf : s.directory.ram.wf
  records : s.directory.ram.gainsSound
  hits : ∀ h ∈ s.walker.job.hits, h.content.gain.toNat ≤ Config.gainTop
  abandoned : ∀ r, s.xps.abandoned = some r → r.gain ≤ Config.gainTop
  slots : s.xps.Each fun c => c.gain ≤ Config.gainTop

theorem State.gainsKept_iff (s : State) :
    s.GainsKept ↔ s.loadSound ∧ s.directory.ram.wf ∧ s.gainsSound :=
  ⟨fun h => ⟨h.load, h.wf, h.records, h.hits, h.abandoned, h.slots⟩,
    fun ⟨hl, hw, hr, hh, ha, hx⟩ => ⟨hl, hw, hr, hh, ha, hx⟩⟩

/-- What a step does to the loads, table RAM, the hits of a walk, an install that a walk abandoned, and the slots. -/
structure State.Moved (s t : State) : Prop where
  stored : s.Stored t
  xps : Changes s.GainsKept s.xps t.xps
  hits : s.GainsKept → ∀ h ∈ t.walker.job.hits, h.content.gain.toNat ≤ Config.gainTop
  abandoned : s.GainsKept → ∀ r, t.xps.abandoned = some r → r.gain ≤ Config.gainTop

namespace State.Moved

variable {s t u : State}

theorem gainsKept (h : s.Moved t) (hs : s.GainsKept) : t.GainsKept where
  load := h.stored.load hs.load
  wf := (h.stored.ram hs.load).wf hs.wf
  records := (h.stored.ram hs.load).gainsSound hs.wf hs.records
  hits := h.hits hs
  abandoned := h.abandoned hs
  slots := h.xps.gains hs hs.slots

theorem trans (h : s.Moved t) (h' : t.Moved u) : s.Moved u where
  stored := h.stored.trans h'.stored
  xps := by
    have weaken : ∀ {y z : CrosspointSet}, Changes t.GainsKept y z → Changes s.GainsKept y z := by
      intro y z hyz
      induction hyz with
      | refl => exact .refl
      | fewer _ hz ih => exact ih.fewer hz
      | owners _ hz ih => exact ih.owners hz
      | install _ r hr ih => exact ih.install r fun hs => hr (h.gainsKept hs)
      | gain _ hc hg ih => exact ih.gain hc hg
    exact h.xps.trans (weaken h'.xps)
  hits hs := h'.hits (h.gainsKept hs)
  abandoned hs := h'.abandoned (h.gainsKept hs)

theorem of_eq (hst : s.Stored t) (hx : t.xps = s.xps) (hj : ∀ h ∈ t.walker.job.hits, h ∈ s.walker.job.hits) :
    s.Moved t where
  stored := hst
  xps := hx ▸ .refl
  hits hs h hh := hs.hits h (hj h hh)
  abandoned hs := hx ▸ hs.abandoned

theorem quiet (h : s.Moved t) (hq : t.Quiet u) : s.Moved u :=
  h.trans (of_eq hq.stored hq.xps fun _ hx => hq.job.hits ▸ hx)

theorem refl (s : State) : s.Moved s := of_eq (.of_eq rfl rfl) rfl fun _ => id

theorem handles (h : s.Moved t) (hu : t.Handles u) : s.Moved u :=
  h.trans {
    stored := .of_eq (by rw [hu.others]; rfl) (by rw [hu.others]; rfl)
    xps := hu.xps _
    hits := fun hs => hu.job ▸ hs.hits
    abandoned := fun hs => hu.abandoned ▸ hs.abandoned }

theorem setWalker (h : s.Moved t) (w : Walker) (hw : ∀ x ∈ w.job.hits, x ∈ t.walker.job.hits) :
    s.Moved (t.setWalker w) :=
  h.trans (of_eq (.of_eq rfl rfl) rfl hw)

theorem setJob (h : s.Moved t) (j : Job)
    (hj : t.GainsKept → ∀ h ∈ j.hits, h.content.gain.toNat ≤ Config.gainTop) : s.Moved (t.setJob j) :=
  h.trans { stored := .of_eq rfl rfl, xps := .refl, hits := hj, abandoned := fun hs => hs.abandoned }

theorem applyLevels (h : s.Moved t) (ls : List KeyLevel) : s.Moved (t.applyLevels ls) := by
  obtain ⟨u, j, hu, hj, e⟩ := t.applyLevels_eq ls
  rw [e]
  refine (h.handles hu).setJob j fun _ _ hx => ?_
  rw [Job.hits_of_walk hj] at hx
  exact absurd hx List.not_mem_nil

/-- The slots change, and no install is left that a walk abandoned but one that was. -/
theorem setXps (h : s.Moved t) (x : CrosspointSet) (hx : ∀ G, Changes G t.xps x)
    (ha : ∀ r, x.abandoned = some r → t.xps.abandoned = some r) : s.Moved (t.setXps x) :=
  h.trans { stored := .of_eq rfl rfl, xps := hx _, hits := fun hs => hs.hits,
            abandoned := fun hs r hr => hs.abandoned r (ha r hr) }

theorem install_abandoned (r : Install) (s : State) : (s.install r).1.xps.abandoned = s.xps.abandoned := by
  rcases s.install_xps r with e | ⟨i, c, -, -, -, -, e⟩ | ⟨-, -, i, p, e⟩ <;> rw [e] <;>
    simp only [CrosspointSet.setSlot_abandoned]

theorem install_stored (r : Install) (s : State) : s.Stored (s.install r).1 := by
  have offered {u : State} (hu : s.Stored u) (body : NoticeBody) : s.Stored (u.offer body) :=
    hu.trans (.of_eq (u.offer_execution body) (by rw [State.offer_directory]))
  have same : s.Stored s := .of_eq rfl rfl
  rcases s.install_cases r with ⟨-, -, e⟩ | ⟨-, ⟨i, c, -, e⟩ | ⟨-, ⟨i, -, e⟩ | ⟨-, ⟨i, c, -, -, e⟩ | ⟨-, e⟩⟩⟩⟩
  all_goals rw [e]
  · exact same
  · rcases s.installJoin_cases r i c with ⟨-, e⟩ | ⟨-, -, e⟩ | ⟨-, -, e⟩ <;> rw [e]
    · exact same
    · exact same
    · exact .of_eq rfl rfl
  · obtain ⟨h0, h1⟩ := s.installFree_eq r i
    by_cases hf : (s.installFree r i).1.xps.freeCount = 0
    · rw [h0 hf]
      refine offered ?_ _
      exact .of_eq rfl rfl
    · rw [h1 hf]
      exact .of_eq rfl rfl
  · have h := s.installEvict_eq r i c
    rw [h]
    refine offered ?_ _
    exact .of_eq rfl rfl
  · exact same

theorem install_walker (r : Install) (s : State) : (s.install r).1.walker = s.walker := by
  obtain ⟨m, rs, e⟩ := s.install_eq r
  rw [e]
  rfl

theorem install (h : s.Moved t) (r : Install) (hr : t.GainsKept → r.gain ≤ Config.gainTop) :
    s.Moved (t.install r).1 :=
  h.trans {
    stored := install_stored r t
    xps := Changes.refl.install r hr
    hits := fun hs => install_walker r t ▸ hs.hits
    abandoned := fun hs => install_abandoned r t ▸ hs.abandoned }

theorem begin {code : Nat} {effect : List Byte → State → State} (he : ∀ ps, s.Moved (effect ps s)) :
    s.Moved (s.begin code effect) := by
  rcases s.begin_cases code effect with e | ⟨c, rest, -, -, -, ⟨-, e⟩ | ⟨-, e⟩⟩ <;> rw [e]
  · exact refl s
  · exact (refl s).quiet ((Quiet.refl s).answer _)
  · exact he _

theorem answer (h : s.Moved t) (a : Answer) : s.Moved (t.answer a) := h.quiet ((Quiet.refl t).answer a)

/-- Requests are no part of this. -/
theorem setRequests (h : s.Moved t) (rs : List Request) : s.Moved (t.setRequests rs) :=
  h.trans (of_eq (.of_eq rfl rfl) rfl fun _ => id)

theorem take (h : s.Moved t) {r : Request} {effect : State → State} (he : ∀ u : State, u.Moved (effect u)) :
    s.Moved (t.take r effect) := by
  rcases t.take_cases r effect with ⟨-, e⟩ | ⟨-, e⟩ <;> rw [e]
  · exact (h.setRequests _).trans (he _)
  · exact h

end State.Moved

/-! ### Walks -/

theorem moved_pinReset (straps : Fin 8) : Leads State.Moved (.pinReset straps) := fun s => ⟨_, rfl, {
  stored := ⟨fun _ => State.loadSound_of nofun, fun _ => .refl⟩
  xps := Changes.refl.fewer fun i c hc => by
    simp [State.initial, CrosspointSet.initial] at hc
  hits := fun _ _ hx => absurd hx List.not_mem_nil
  abandoned := fun _ _ hr => by cases hr }⟩

theorem moved_keyEventTake : Leads State.Moved .keyEventTake := by
  refine fun s => ⟨_, rfl, ?_⟩
  split
  · exact .refl s
  · rename_i e rest hq
    split
    · have taken : s.Moved (s.setWalker { s.walker with queue := rest }) :=
        (State.Moved.refl s).setWalker _ fun _ => id
      rcases (s.setWalker { s.walker with queue := rest }).handle_eq e with h | ⟨u, j, hu, hj, h⟩ <;> rw [h]
      · exact taken
      · refine (taken.handles hu).setJob j fun _ _ hx => ?_
        rw [Job.hits_of_walk hj] at hx
        exact absurd hx List.not_mem_nil
    · exact .refl s

/-- The hits of a walk that starts are of records of table RAM (R69). -/
theorem moved_walkStart (upsets : Upsets) : Leads State.Moved (.walkStart upsets) := by
  refine fun s => ⟨_, rfl, ?_⟩
  split
  · rename_i tag retry rest hj
    split
    · dsimp only
      rw [State.reportAll_eq]
      refine State.Moved.setRequests ?_ _
      have upset : s.directory.ram.Reaches (s.directory.ram.upsetAll upsets) := .upsetAll upsets
      exact {
        stored := ⟨id, fun _ => upset.trans (.readWalk _ _ _ _)⟩
        xps := .refl
        hits := fun hs x hx => by
          refine readWalk_gains (upset.wf hs.wf) (upset.gainsSound hs.wf hs.records) tag s.directory.region
            s.directory.scene x ?_
          simpa [Job.hits, Job.walk?] using hx
        abandoned := fun hs => hs.abandoned }
    · exact .refl s
  · exact .refl s
  · exact .refl s

theorem State.Moved.endWalk {s t : State} (h : s.Moved t) (w : Walk) (rest : List KeyLevel) :
    s.Moved (t.endWalk w rest) := by
  refine (h.quiet (Quiet.setDirectory (Quiet.setDirectory (Quiet.refl t) _ ?_) _ ?_)).applyLevels rest
  · exact .scrubs _
  · exact .refl

theorem State.Moved.walkMissed {s t : State} (h : s.Moved t) (w : Walk) : s.Moved (t.walkMissed w) := by
  unfold State.walkMissed
  dsimp only
  split
  · exact (h.handles ((Handles.refl t).setEntry _ _ _)).quiet ((Quiet.refl _).offer _)
  · exact h.quiet ((Quiet.refl _).offer _)

theorem State.Moved.walkOutcome {s t : State} (h : s.Moved t) (w : Walk) (ok : Bool) :
    s.Moved (t.walkOutcome w ok) := by
  have decided : s.Moved (match w.tag with
      | .key p k =>
        if ok then t.setEntry p k { t.entry p k with state := .held, lamp := if w.busyHeld then .busy else .on }
        else (t.setEntry p k { t.entry p k with state := .refused, lamp := .busy }).report .slotExhausted (.port p)
      | .cue c => if ok then t else t.report .slotExhausted (.circuit c)) := by
    split
    · split
      · exact h.handles ((Handles.refl t).setEntry _ _ _)
      · exact (h.handles ((Handles.refl t).setEntry _ _ _)).quiet ((Quiet.refl _).report _ _)
    · split
      · exact h
      · exact h.quiet ((Quiet.refl _).report _ _)
  unfold State.walkOutcome
  dsimp only
  split
  · exact decided.quiet ((Quiet.refl _).offer _)
  · exact decided

theorem State.startMaking_eq (w : Walk) (s : State) : s.Handles (s.startMaking w).1
    ∧ (s.startMaking w).2.1 <:+ w.reading.hits := by
  have settled {u : State} (hu : s.Handles u) :
      s.Handles (State.settleCalls w.tag w.reading.hits false u).1
        ∧ (State.settleCalls w.tag w.reading.hits false u).2.1 <:+ w.reading.hits :=
    ⟨(hu.settleCalls w.tag w.reading.hits false).1, (hu.settleCalls w.tag w.reading.hits false).2.1⟩
  unfold State.startMaking
  dsimp only
  split
  · exact settled ((Handles.refl s).setEntry _ _ _)
  · exact settled (Handles.refl s)

theorem Job.hits_making (w : Walk) (hs : List Hit) (ok : Bool) (rest : List KeyLevel) :
    (Job.walking { w with phase := .making hs ok } rest).hits = w.reading.hits ++ hs := rfl

theorem moved_walkEnd : Leads State.Moved .walkEnd := by
  refine fun s => ⟨_, rfl, ?_⟩
  split
  · rename_i w rest hj
    split
    · split
      · exact .refl s
      · split
        · split
          · exact ((State.Moved.refl s).walkMissed w).endWalk w rest
          · obtain ⟨hs, hsuffix⟩ := s.startMaking_eq w
            dsimp only
            split
            · exact (((State.Moved.refl s).handles hs).walkOutcome w _).endWalk w rest
            · refine ((State.Moved.refl s).handles hs).setJob _ fun hk x hx => hk.hits x ?_
              rw [hs.job, hj]
              rw [Job.hits_making] at hx
              rcases List.mem_append.1 hx with hx | hx
              · exact List.mem_append_left _ hx
              · exact List.mem_append_left _ (hsuffix.subset hx)
        · exact (State.Moved.refl s).endWalk w rest
    · exact ((State.Moved.refl s).walkOutcome w _).endWalk w rest
    · exact .refl s
  · exact .refl s
  · exact .refl s

theorem Hit.install?_gain {tag : Tag} {h : Hit} {r : Install} (hr : h.install? tag = some r) :
    r.gain = h.content.gain.toNat ∧ r.owner = tag.owner := by
  unfold Hit.install? at hr
  split at hr <;> cases hr
  exact ⟨rfl, rfl⟩

/-- The walk's next install is of a hit that it holds; the abandoned one was a walk's (R72, R82). -/
theorem moved_crosspointInstall : Leads State.Moved .crosspointInstall := by
  refine fun s => ⟨_, rfl, ?_⟩
  split
  · rename_i w rest hj
    split
    · rename_i h hs ok hp
      have held : ∀ x ∈ w.reading.hits ++ h :: hs, x ∈ s.walker.job.hits := fun x hx => by
        simpa [hj, Job.hits, Job.walk?, hp] using hx
      have installed : s.Moved (s.installHit w.tag h).1 ∧ (s.installHit w.tag h).1.walker = s.walker := by
        unfold State.installHit
        split
        · rename_i r hr
          refine ⟨(State.Moved.refl s).install r fun hk => ?_, State.Moved.install_walker r s⟩
          rw [(Hit.install?_gain hr).1]
          exact hk.hits h (held h (by simp))
        · exact ⟨.refl s, rfl⟩
      obtain ⟨hm, hw⟩ := installed
      obtain ⟨hh, hsuffix, -⟩ := (State.Handles.refl (s.installHit w.tag h).1).settleCalls w.tag hs
        (ok || (s.installHit w.tag h).2)
      refine (hm.handles hh).setJob _ fun hk x hx => hk.hits x ?_
      rw [hh.job, hw]
      refine held x ?_
      rw [Job.hits_making] at hx
      rcases List.mem_append.1 hx with hx | hx
      · exact List.mem_append_left _ hx
      · exact List.mem_append_right _ (List.mem_cons_of_mem _ (hsuffix.subset hx))
    · exact .refl s
    · exact .refl s
  · rename_i r ha _
    exact ((State.Moved.refl s).install r fun hk => hk.abandoned r ha).setXps _
      (fun _ => Changes.refl.same rfl) (fun _ hr => by cases hr)
  · exact .refl s

/-! ### Removals and resets -/

theorem CrosspointSet.Changes.abandon {G : Prop} {x y : CrosspointSet} (h : Changes G x y) (a : Option Install) :
    Changes G x { y with abandoned := a } := h.same rfl

theorem State.Moved.removed {s t : State} (h : s.Moved t) (gone : Owner → Bool) :
    s.Moved (t.setXps (t.xps.remove gone)) :=
  h.setXps _ (fun _ => Changes.refl.remove gone) fun r hr => by rwa [CrosspointSet.remove_abandoned] at hr

theorem moved_removeKey (p : Port) (k : Key) : Leads State.Moved (.removeKey p k) := by
  refine fun s => ⟨_, rfl, ?_⟩
  split
  · exact .refl s
  · split
    · exact (State.Moved.refl s).removed _
    · exact .refl s

theorem moved_removePortKeys (p : Port) : Leads State.Moved (.removePortKeys p) := by
  refine fun s => ⟨_, rfl, ?_⟩
  split
  · exact .refl s
  · exact (State.Moved.refl s).take fun u => ((State.Moved.refl u).removed _).setRequests _

theorem moved_removeCircuit (c : CircuitIx) : Leads State.Moved (.removeCircuit c) := by
  refine fun s => ⟨_, rfl, ?_⟩
  split
  · exact .refl s
  · exact (State.Moved.refl s).take fun u => (State.Moved.refl u).removed _

theorem moved_removeKeysAndCues : Leads State.Moved .removeKeysAndCues := by
  refine fun s => ⟨_, rfl, (State.Moved.refl s).take fun u => ?_⟩
  refine (State.Moved.setRequests (State.Moved.setRequests ?_ _) _)
  exact (State.Moved.refl u).setXps _ (fun _ => (Changes.refl.remove _).abandon none) fun _ hr => by cases hr

theorem moved_portRowReset (p : Port) : Leads State.Moved (.portRowReset p) := by
  refine fun s => ⟨_, rfl, ?_⟩
  split
  · exact (State.Moved.refl s).take fun u => (State.Moved.refl u).setWalker _ fun _ => id
  · exact .refl s

theorem moved_walkerReset : Leads State.Moved .walkerReset := fun s => ⟨_, rfl,
  (State.Moved.refl s).take fun u => by
    refine State.Moved.quiet (t := u.setWalker _) ?_ (Quiet.resetTaken (Quiet.refl _))
    exact (State.Moved.refl u).setWalker _ fun _ => id⟩

/-- The abort of the circuits changes them and offers notices. -/
theorem State.Moved.abortCircuit {s t : State} (h : s.Moved t) (c : CircuitIx) : s.Moved (t.abortCircuit c) := by
  unfold State.abortCircuit
  dsimp only
  split
  · exact h
  · refine State.Moved.quiet (t := t.setCircuit c _) ?_ ((Quiet.refl _).offerCueEvent _ _)
    exact h.trans (.of_eq (.of_eq rfl rfl) rfl fun _ => id)

theorem moved_circuitAbort : Leads State.Moved .circuitAbort := by
  refine fun s => ⟨_, rfl, (State.Moved.refl s).take fun u => ?_⟩
  have aborted (cs : List CircuitIx) {t : State} (h : u.Moved t) : u.Moved (cs.foldl State.abortCircuit t) := by
    induction cs generalizing t with
    | nil => exact h
    | cons c rest ih => exact ih (h.abortCircuit c)
  exact (aborted _ (.refl u)).quiet (Quiet.resetTaken (Quiet.refl _))

/-- The install that an abandoned walk had sent is of a hit that it held (R82). -/
theorem Job.sentInstall_eq {j : Job} {r : Install} (h : j.sentInstall = some r) :
    ∃ w rest x hs ok, j = .walking w rest ∧ w.phase = .making (x :: hs) ok ∧ x.install? w.tag = some r := by
  unfold Job.sentInstall at h
  cases j with
  | idle | waiting => cases h
  | walking w rest =>
    simp only [Job.walk?] at h
    split at h
    · exact ⟨w, rest, _, _, _, rfl, ‹_›, h⟩
    · cases h
    · cases h

/-- What a soft reset does at once (R82, R174). -/
theorem softReset_eq (ps : List Byte) (s : State) : softReset ps s =
    ((((s.setManagement { s.management with
      commands := s.management.commands.take 1
      execution := .softReset (s.management.commands.length - 1) }).setDirectory { s.directory with
        ram := s.walker.job.scrubs.foldl TableRam.scrub s.directory.ram, turn := .either }).setXps
          { s.xps with abandoned := s.walker.job.sentInstall }).setWalker
            { s.walker with queue := [], job := .idle }).setRequests (s.requests ++ resetRequests) := by
  unfold softReset
  rw [State.foldl_hand]
  rfl

theorem moved_softReset : Leads State.Moved .softReset := by
  refine fun s => ⟨_, rfl, .begin fun ps => ?_⟩
  rw [softReset_eq]
  refine State.Moved.setRequests ?_ _
  exact {
    stored := ⟨fun _ => State.loadSound_of nofun, fun _ => .scrubs _⟩
    xps := Changes.refl.same rfl
    hits := fun _ _ hx => absurd hx List.not_mem_nil
    abandoned := fun hs r hr => by
      obtain ⟨w, rest, x, xs, ok, hj, hp, hx⟩ := Job.sentInstall_eq hr
      rw [(Hit.install?_gain hx).1]
      refine hs.hits x ?_
      rw [hj]
      simp [Job.hits, Job.walk?, hp] }

/-! ### Commands -/

theorem moved_slotEnable : Leads State.Moved .slotEnable := by
  refine fun s => ⟨_, rfl, .begin fun ps => ?_⟩
  unfold slotEnable
  dsimp only
  split
  · exact (State.Moved.refl s).answer _
  · refine ((State.Moved.refl s).setXps _ (fun _ => Changes.refl.fewer fun i c hc => ?_) fun r hr => by
      simpa only using hr).answer _
    simp only [Fin.getElem_fin, each_get] at hc ⊢
    split at hc
    · cases hc
    · exact hc

theorem CrosspointSet.Changes.retire {x : CrosspointSet} (i : SlotIx) (G : Prop) :
    Changes G x (x.setSlot i .retired) := by
  refine Changes.refl.fewer fun j c hc => ?_
  rw [CrosspointSet.setSlot_get] at hc
  split at hc
  · cases hc
  · exact hc

theorem moved_slotRetire : Leads State.Moved .slotRetire := by
  refine fun s => ⟨_, rfl, .begin fun ps => ?_⟩
  unfold slotRetire
  split
  · exact (State.Moved.refl s).answer _
  · rename_i i _
    refine State.Moved.answer ?_ _
    have retired {u : State} (hu : s.Moved u) (hx : u.xps = s.xps) :
        s.Moved (u.setXps (s.xps.setSlot i .retired)) :=
      hu.setXps _ (hx ▸ CrosspointSet.Changes.retire i) fun r hr => by
        rwa [CrosspointSet.setSlot_abandoned, ← hx] at hr
    unfold State.retire
    dsimp only
    split
    · rw [State.foldl_hand]
      exact retired ((State.Moved.refl s).setRequests _) rfl
    · split
      · exact (retired (.refl s) rfl).quiet ((Quiet.refl _).offer _)
      · exact retired (.refl s) rfl
    · exact retired (.refl s) rfl
    · exact .refl s

theorem moved_installCrosspoint : Leads State.Moved .installCrosspoint := by
  refine fun s => ⟨_, rfl, .begin fun ps => ?_⟩
  unfold installCrosspoint
  dsimp only
  split
  · exact ((State.Moved.refl s).install _ fun _ => Nat.min_le_right _ _).answer _
  · exact (State.Moved.refl s).answer _

theorem moved_removeCrosspoint : Leads State.Moved .removeCrosspoint := by
  refine fun s => ⟨_, rfl, .begin fun ps => ?_⟩
  unfold removeCrosspoint
  split
  · exact (State.Moved.refl s).answer _
  · rename_i i _
    split
    · rename_i c hc
      split
      · refine ((State.Moved.refl s).setXps _ (fun _ => Changes.refl.owners fun j => ?_) fun r hr => ?_).answer _
        · rw [CrosspointSet.setSlot_get]
          split
          · rename_i hj
            subst hj
            exact .inr ⟨Owner.isController, by rw [hc]⟩
          · exact .inl rfl
        · rwa [CrosspointSet.setSlot_abandoned] at hr
      · exact (State.Moved.refl s).answer _
    all_goals exact (State.Moved.refl s).answer _

theorem moved_setGain : Leads State.Moved .setGain := by
  refine fun s => ⟨_, rfl, .begin fun ps => ?_⟩
  unfold setGain
  dsimp only
  split
  · exact (State.Moved.refl s).answer _
  · split
    · rename_i c hc
      refine ((State.Moved.refl s).setXps _ (fun _ => Changes.refl.gain hc (Nat.min_le_right _ _))
        fun r hr => ?_).answer _
      rwa [CrosspointSet.setSlot_abandoned] at hr
    all_goals exact (State.Moved.refl s).answer _

/-- Every command is such a step. -/
theorem leads_moved : ∀ i, Leads State.Moved i :=
  forall_instr
    (quiet := fun _ hi s =>
      have ⟨t, ht, hq⟩ := leads_quiet hi s
      ⟨t, ht, (State.Moved.refl s).quiet hq⟩)
    (pinReset := moved_pinReset) (keyEventTake := moved_keyEventTake) (walkStart := moved_walkStart)
    (walkEnd := moved_walkEnd) (crosspointInstall := moved_crosspointInstall) (removeKey := moved_removeKey)
    (removePortKeys := moved_removePortKeys) (removeCircuit := moved_removeCircuit)
    (removeKeysAndCues := moved_removeKeysAndCues) (portRowReset := moved_portRowReset)
    (walkerReset := moved_walkerReset) (circuitAbort := moved_circuitAbort) (softReset := moved_softReset)
    (slotEnable := moved_slotEnable) (slotRetire := moved_slotRetire)
    (installCrosspoint := moved_installCrosspoint) (removeCrosspoint := moved_removeCrosspoint)
    (setGain := moved_setGain)

theorem kept_of_moved {P : State → Prop} (hp : ∀ s q, P s → P (s.setPending q))
    (h : ∀ s t : State, s.Moved t → P s → P t) : Kept P :=
  kept_of_leads hp fun i s =>
    have ⟨t, ht, hm⟩ := leads_moved i s
    ⟨t, ht, h s t hm⟩

end Sys2Proof.Machine
end

section
/-!
PROOFS, the owners of slots under every command (R20, R71, R73, R81, R82, R96, R107, R131). The walker's own commands
are shown through `State.HandsFree`, which leaves out the work it has in hand, and `State.fits`, which says what that
work asks of the state.
-/

namespace Sys2Proof.Machine

open State (Quiet)

/-! ### Owners that no slot lists -/

namespace CrosspointSet.without

variable {x : CrosspointSet} {o : Owner}

theorem remove (h : x.without o) (gone : Owner → Bool) : (x.remove gone).without o :=
  CrosspointSet.Each.remove h gone fun _ _ hc _ hm => hc (List.mem_of_mem_filter hm)

theorem of_gone {gone : Owner → Bool} (hg : gone o = true) : (x.remove gone).without o := by
  intro i c hc ho
  rw [CrosspointSet.remove_get] at hc
  rcases Slot.remove_eq_live hc with ⟨-, hn⟩ | ⟨d, -, -, rfl⟩
  · rw [hn o ho] at hg
    cases hg
  · have := (List.mem_filter.1 ho).2
    rw [hg] at this
    cases this

theorem install {s : State} {r : Install} (h : s.xps.without o) (ho : o ≠ r.owner) :
    (s.install r).1.xps.without o :=
  CrosspointSet.Each.install h
    (fun c hc _ _ _ hm => by
      rcases List.mem_append.1 hm with hm | hm
      · exact hc hm
      · exact ho (List.mem_singleton.1 hm))
    (fun _ hm => ho (List.mem_singleton.1 hm))

theorem setSlot (h : x.without o) {i : SlotIx} {v : Slot} (hv : ∀ c, v = .live c → o ∉ c.owners) :
    (x.setSlot i v).without o :=
  CrosspointSet.Each.setSlot h hv

end CrosspointSet.without

/-- An install changes the slots, and what else it does is quiet. -/
theorem State.install_quiet (r : Install) (s : State) : (s.setXps (s.install r).1.xps).Quiet (s.install r).1 := by
  rcases s.install_cases r with ⟨-, -, e⟩ | ⟨-, ⟨i, c, -, e⟩ | ⟨-, ⟨i, -, e⟩ | ⟨-, ⟨i, c, -, -, e⟩ | ⟨-, e⟩⟩⟩⟩
  all_goals rw [e]
  · exact Quiet.refl s
  · rcases s.installJoin_cases r i c with ⟨-, e⟩ | ⟨-, -, e⟩ | ⟨-, -, e⟩ <;> rw [e]
    · exact Quiet.refl s
    · exact Quiet.refl s
    · exact Quiet.refl (s.setXps _)
  · obtain ⟨h0, h1⟩ := s.installFree_eq r i
    generalize (s.installFree r i).1 = t at h0 h1
    by_cases hf : t.xps.freeCount = 0
    · exact Eq.subst (motive := (s.setXps t.xps).Quiet) (h0 hf).symm ((Quiet.refl _).offer _)
    · exact Eq.subst (motive := (s.setXps t.xps).Quiet) (h1 hf).symm (Quiet.refl _)
  · have h := s.installEvict_eq r i c
    generalize (s.installEvict r i c).1 = t at h
    have asked : (s.setXps t.xps).Quiet ((s.setXps t.xps).setRequests (s.requests ++ c.busyRequests)) := by
      refine (Quiet.refl _).setRequests _ fun q hq => ?_
      have : q ∉ c.busyRequests := by
        unfold Connection.busyRequests
        rw [List.mem_filterMap]
        rintro ⟨o, -, ho⟩
        cases o <;> cases ho
        cases hq
      simp [this]
    exact Eq.subst (motive := (s.setXps t.xps).Quiet) h.symm (asked.offer _)
  · exact Quiet.refl s

theorem KeyEntry.holds_congr {e e' : KeyEntry} (h : e.state = e'.state) : e.holds ↔ e'.holds := by
  unfold KeyEntry.holds
  rw [h]

/-! ### Steps that keep the owners sound whatever the walker does -/

theorem State.OwnersSound.quiet {s t : State} (h : s.OwnersSound) (hq : s.Quiet t) : t.OwnersSound := by
  have reset {r : Request} (hr : r.resets = true) (hm : r ∈ t.requests) : r ∈ s.requests :=
    (hq.requests r hr).1 hm
  have same {w' : Walk} {rest : List KeyLevel} (hj : t.walker.job = .walking w' rest) :=
    Job.Alike.walking (hj ▸ hq.job)
  exact {
    keys := fun p k hk => by
      rw [hq.xps]
      exact h.keys p k fun hs => hk ((KeyEntry.holds_congr (hq.keys p k)).2 hs)
    circuits := fun c hc => by
      rw [hq.xps]
      exact h.circuits c fun hs => hc (hq.circuits c hs)
    resetIdle := fun hr => by
      have := h.resetIdle (hr.imp (reset rfl) (Or.imp (reset rfl) (reset rfl)))
      exact Job.Alike.idle (this ▸ hq.job)
    abandonedReset := fun ha => by
      rw [hq.xps] at ha
      exact (hq.requests _ rfl).2 (h.abandonedReset ha)
    walkerReset := fun hr => by
      rw [hq.xps]
      exact h.walkerReset (reset rfl hr)
    circuitAbort := fun hr => by
      rw [hq.xps]
      exact h.circuitAbort (reset rfl hr)
    rowReset := fun p hr k => by
      rw [hq.xps]
      obtain ⟨hw, ha, hj⟩ := h.rowReset p (reset rfl hr) k
      refine ⟨hw, ha, fun w' rest x hs ok hj' ht hp => ?_⟩
      obtain ⟨w, e, htag, -, hphase, -⟩ := same hj'
      exact hj w rest x hs ok e (htag ▸ ht) (hphase ▸ hp)
    abandonedOwner := fun r hr => by
      rw [hq.xps] at hr
      obtain ⟨hk, hc⟩ := h.abandonedOwner r hr
      exact ⟨fun p k ho => (hq.keys p k).trans (hk p k ho), fun c ho => hq.circuits c (hc c ho)⟩
    waiting := fun tag retry rest p k hj ht hk =>
      h.waiting tag retry rest p k (Job.Alike.waiting (hj ▸ hq.job)) ht
        ((KeyEntry.holds_congr (hq.keys p k)).1 hk)
    reading := fun w' rest p k hj hp ht hk => by
      obtain ⟨w, e, htag, -, hphase, -⟩ := same hj
      exact h.reading w rest p k e (hphase ▸ hp) (htag ▸ ht) ((KeyEntry.holds_congr (hq.keys p k)).1 hk)
    making := fun w' rest hs ok p k hj hp ht => by
      obtain ⟨w, e, htag, -, hphase, -⟩ := same hj
      obtain ⟨hheld, hw⟩ := h.making w rest hs ok p k e (hphase ▸ hp) (htag ▸ ht)
      rw [hq.xps]
      exact ⟨(hq.keys p k).trans hheld, hw⟩
    unsuppressed := fun w' rest hs ok hj hp => by
      obtain ⟨w, e, -, -, hphase, hsup⟩ := same hj
      have hp' : w.phase = .making hs ok := hphase ▸ hp
      exact (hsup (by rw [hp']; nofun)).trans (h.unsuppressed w rest hs ok e hp')
    makingCue := fun w' rest x hs ok c hj hp ht => by
      obtain ⟨w, e, htag, -, hphase, -⟩ := same hj
      exact hq.circuits c (h.makingCue w rest x hs ok c e (hphase ▸ hp) (htag ▸ ht)) }

/-- The slots change, and list no key or circuit that they did not list but the owner of an install that a walk had
sent when it was abandoned, which is taken (R82). -/
theorem State.OwnersSound.setXps {s : State} (h : s.OwnersSound) {x : CrosspointSet}
    (hx : ∀ o : Owner, o.isController = false → s.xps.without o →
      x.without o ∨ ∃ r, s.xps.abandoned = some r ∧ r.owner = o)
    (ha : ∀ r, x.abandoned = some r → s.xps.abandoned = some r) : (s.setXps x).OwnersSound where
  keys p k hk := by
    rcases hx _ rfl (h.keys p k hk) with hw | ⟨r, hr, ho⟩
    · exact hw
    · exact absurd (.inl ((h.abandonedOwner r hr).1 p k ho)) hk
  circuits c hc := by
    rcases hx _ rfl (h.circuits c hc) with hw | ⟨r, hr, ho⟩
    · exact hw
    · exact absurd ((h.abandonedOwner r hr).2 c ho) hc
  resetIdle := h.resetIdle
  abandonedReset hn := by
    obtain ⟨r, hr⟩ := Option.ne_none_iff_exists'.1 hn
    exact h.abandonedReset (by rw [ha r hr]; nofun)
  walkerReset hm p k := by
    obtain ⟨hw, hab⟩ := h.walkerReset hm p k
    refine ⟨?_, fun r hr => hab r (ha r hr)⟩
    rcases hx _ rfl hw with hw | ⟨r, hr, ho⟩
    · exact hw
    · exact absurd ho (hab r hr)
  circuitAbort hm c := by
    obtain ⟨hw, hab⟩ := h.circuitAbort hm c
    refine ⟨?_, fun r hr => hab r (ha r hr)⟩
    rcases hx _ rfl hw with hw | ⟨r, hr, ho⟩
    · exact hw
    · exact absurd ho (hab r hr)
  rowReset p hm k := by
    obtain ⟨hw, hab, hj⟩ := h.rowReset p hm k
    refine ⟨?_, fun r hr => hab r (ha r hr), hj⟩
    rcases hx _ rfl hw with hw | ⟨r, hr, ho⟩
    · exact hw
    · exact absurd ho (hab r hr)
  abandonedOwner r hr := h.abandonedOwner r (ha r hr)
  waiting := h.waiting
  reading := h.reading
  making w rest hs ok p k hj hp ht := by
    obtain ⟨hheld, hw⟩ := h.making w rest hs ok p k hj hp ht
    refine ⟨hheld, fun hok => ?_⟩
    rcases hx _ rfl (hw hok) with hw | ⟨r, hr, -⟩
    · exact hw
    · have idle := h.resetIdle (.inl (h.abandonedReset (by rw [hr]; nofun)))
      have hj : s.walker.job = .walking w rest := hj
      rw [idle] at hj
      cases hj
  unsuppressed := h.unsuppressed
  makingCue := h.makingCue

theorem State.OwnersSound.removed {s : State} (h : s.OwnersSound) (gone : Owner → Bool) :
    (s.setXps (s.xps.remove gone)).OwnersSound :=
  h.setXps (fun _ _ hw => .inl (hw.remove gone)) fun r hr => by rwa [CrosspointSet.remove_abandoned] at hr

/-- A command keeps the owners sound where its effect does. -/
theorem State.OwnersSound.begin {s : State} (h : s.OwnersSound) {code : Nat} {effect : List Byte → State → State}
    (he : ∀ ps, (effect ps s).OwnersSound) : (s.begin code effect).OwnersSound := by
  rcases s.begin_cases code effect with e | ⟨c, rest, -, -, -, ⟨-, e⟩ | ⟨-, e⟩⟩ <;> rw [e]
  · exact h
  · exact h.quiet ((Quiet.refl s).answer _)
  · exact he _

theorem State.OwnersSound.answer {s : State} (h : s.OwnersSound) (a : Answer) : (s.answer a).OwnersSound :=
  h.quiet ((Quiet.refl s).answer a)

/-! ### The walker with its work left out -/

/-- What the slots are owned by, in a state in which the walker may have something in hand: no request of a soft
reset is in transit to the crosspoint set, the walker or the cue engine. -/
structure State.HandsFree (s : State) : Prop where
  keys : ∀ p k, ¬ (s.entry p k).holds → s.xps.without (.key p k)
  circuits : ∀ c, ¬ s.circuitOwns c → s.xps.without (.cue c)
  abandoned : s.xps.abandoned = none
  noRemoval : Request.removeKeysAndCues ∉ s.requests
  noReset : Request.walkerReset ∉ s.requests
  noAbort : Request.circuitAbort ∉ s.requests
  rowReset : ∀ p, Request.portRowReset p ∈ s.requests → ∀ k, s.xps.without (.key p k)

/-- What the work in hand asks of the state: a key that waits for its walk, or whose chain is read, holds nothing; one
whose hits are made good is HELD and lists no slot before a success; while installs are to come its circuit may own
slots and its row is not to be reset. -/
def State.fits (s : State) : Job → Prop
  | .idle => True
  | .waiting tag _ _ => ∀ p k, tag = .key p k → ¬ (s.entry p k).holds
  | .walking w _ =>
    match w.phase with
    | .read => ∀ p k, w.tag = .key p k → ¬ (s.entry p k).holds
    | .making hs ok => w.suppressed = false
        ∧ (∀ p k, w.tag = .key p k → (s.entry p k).state = .held ∧ (ok = false → s.xps.without (.key p k)))
        ∧ (hs ≠ [] → (∀ c, w.tag = .cue c → s.circuitOwns c)
            ∧ ∀ p k, w.tag = .key p k → Request.portRowReset p ∉ s.requests)

theorem State.fits_read {s : State} {w : Walk} {rest : List KeyLevel} (hp : w.phase = .read) :
    s.fits (.walking w rest) ↔ ∀ p k, w.tag = .key p k → ¬ (s.entry p k).holds := by
  simp only [State.fits, hp]

theorem State.fits_making {s : State} {w : Walk} {rest : List KeyLevel} {hs : List Hit} {ok : Bool}
    (hp : w.phase = .making hs ok) : s.fits (.walking w rest) ↔ w.suppressed = false
        ∧ (∀ p k, w.tag = .key p k → (s.entry p k).state = .held ∧ (ok = false → s.xps.without (.key p k)))
        ∧ (hs ≠ [] → (∀ c, w.tag = .cue c → s.circuitOwns c)
            ∧ ∀ p k, w.tag = .key p k → Request.portRowReset p ∉ s.requests) := by
  simp only [State.fits, hp]

/-- With its work fitting, the owners are sound. -/
theorem State.HandsFree.ownersSound {s : State} (h : s.HandsFree) (hf : s.fits s.walker.job) : s.OwnersSound where
  keys := h.keys
  circuits := h.circuits
  resetIdle hr := by
    rcases hr with hr | hr | hr
    · exact absurd hr h.noRemoval
    · exact absurd hr h.noReset
    · exact absurd hr h.noAbort
  abandonedReset hn := absurd h.abandoned hn
  walkerReset hr := absurd hr h.noReset
  circuitAbort hr := absurd hr h.noAbort
  rowReset p hr k := by
    refine ⟨h.rowReset p hr k, fun r ha => ?_, fun w rest x hs ok hj ht hp => ?_⟩
    · rw [h.abandoned] at ha
      cases ha
    · rw [hj, State.fits_making hp] at hf
      obtain ⟨-, -, hleft⟩ := hf
      exact (hleft nofun).2 p k ht hr
  abandonedOwner r ha := by
    rw [h.abandoned] at ha
    cases ha
  waiting tag retry rest p k hj ht := by
    rw [hj] at hf
    exact hf p k ht
  reading w rest p k hj hp ht := by
    rw [hj, State.fits_read hp] at hf
    exact hf p k ht
  making w rest hs ok p k hj hp ht := by
    rw [hj, State.fits_making hp] at hf
    obtain ⟨-, hkey, -⟩ := hf
    exact hkey p k ht
  unsuppressed w rest hs ok hj hp := by
    rw [hj, State.fits_making hp] at hf
    exact hf.1
  makingCue w rest x hs ok c hj hp ht := by
    rw [hj, State.fits_making hp] at hf
    obtain ⟨-, -, hleft⟩ := hf
    exact (hleft nofun).1 c ht

theorem State.OwnersSound.handsFree {s : State} (h : s.OwnersSound) (h1 : Request.removeKeysAndCues ∉ s.requests)
    (h2 : Request.walkerReset ∉ s.requests) (h3 : Request.circuitAbort ∉ s.requests) : s.HandsFree where
  keys := h.keys
  circuits := h.circuits
  abandoned := by
    by_contra hn
    exact h1 (h.abandonedReset hn)
  noRemoval := h1
  noReset := h2
  noAbort := h3
  rowReset p hr k := (h.rowReset p hr k).1

theorem State.OwnersSound.handsFree_of_busy {s : State} (h : s.OwnersSound) (hj : s.walker.job ≠ .idle) :
    s.HandsFree :=
  h.handsFree (fun hr => hj (h.resetIdle (.inl hr))) (fun hr => hj (h.resetIdle (.inr (.inl hr))))
    fun hr => hj (h.resetIdle (.inr (.inr hr)))

theorem State.OwnersSound.fits_walking {s : State} (h : s.OwnersSound) {w : Walk} {rest : List KeyLevel}
    (hj : s.walker.job = .walking w rest) : s.fits (.walking w rest) := by
  cases hp : w.phase with
  | read => exact (State.fits_read hp).2 fun p k => h.reading w rest p k hj hp
  | making hs ok =>
    refine (State.fits_making hp).2 ⟨h.unsuppressed w rest hs ok hj hp,
      fun p k => h.making w rest hs ok p k hj hp, fun hne => ?_⟩
    obtain ⟨x, hs, rfl⟩ := List.exists_cons_of_ne_nil hne
    refine ⟨fun c => h.makingCue w rest x hs ok c hj hp, fun p k ht hr => ?_⟩
    obtain ⟨-, -, hwalk⟩ := h.rowReset p hr k
    exact hwalk w rest x hs ok hj ht hp

namespace State.HandsFree

variable {s t : State}

theorem quiet (h : s.HandsFree) (hq : s.Quiet t) : t.HandsFree where
  keys p k hk := by
    rw [hq.xps]
    exact h.keys p k fun hs => hk ((KeyEntry.holds_congr (hq.keys p k)).2 hs)
  circuits c hc := by
    rw [hq.xps]
    exact h.circuits c fun hs => hc (hq.circuits c hs)
  abandoned := hq.xps ▸ h.abandoned
  noRemoval hr := h.noRemoval ((hq.requests _ rfl).1 hr)
  noReset hr := h.noReset ((hq.requests _ rfl).1 hr)
  noAbort hr := h.noAbort ((hq.requests _ rfl).1 hr)
  rowReset p hr := by
    rw [hq.xps]
    exact h.rowReset p ((hq.requests _ rfl).1 hr)

theorem setJob (h : s.HandsFree) {j : Job} (hj : s.fits j) : (s.setJob j).OwnersSound := by
  have free : (s.setJob j).HandsFree := { h with }
  refine free.ownersSound ?_
  cases j <;> exact hj

/-- A key entry changes; where the key then holds nothing, no slot lists it. -/
theorem setEntry (h : s.HandsFree) {p : Port} {k : Key} {e : KeyEntry}
    (he : ¬ e.holds → s.xps.without (.key p k)) : (s.setEntry p k e).HandsFree := by
  have keys : ∀ q j, ¬ ((s.setEntry p k e).entry q j).holds → s.xps.without (.key q j) := by
    intro q j hq
    by_cases hpk : p = q ∧ k = j
    · obtain ⟨rfl, rfl⟩ := hpk
      refine he ?_
      have := s.walker.setEntry_entry_same p k e
      rwa [State.entry_eq, State.setEntry_walker, this] at hq
    · refine h.keys q j ?_
      have := s.walker.setEntry_entry_other (p := p) (q := q) (j := k) (k := j) (by tauto) e
      rwa [State.entry_eq, State.setEntry_walker, this] at hq
  exact { h with keys := keys }

/-- The slots change, and list no owner that they did not list. -/
theorem setXps (h : s.HandsFree) {x : CrosspointSet} (hx : ∀ o, s.xps.without o → x.without o)
    (ha : x.abandoned = s.xps.abandoned) : (s.setXps x).HandsFree :=
  { h with
    keys := fun p k hk => hx _ (h.keys p k hk)
    circuits := fun c hc => hx _ (h.circuits c hc)
    abandoned := ha.trans h.abandoned
    rowReset := fun p hr k => hx _ (h.rowReset p hr k) }

/-- Owners leave the slots. -/
theorem removed (h : s.HandsFree) (gone : Owner → Bool) : (s.setXps (s.xps.remove gone)).HandsFree :=
  h.setXps (fun _ hw => hw.remove gone) (CrosspointSet.remove_abandoned _ _)

theorem removeKey (h : s.HandsFree) (p : Port) (k : Key) (swallow : Bool) : (s.removeKey p k swallow).HandsFree := by
  rw [State.removeKey_eq]
  have counted := (h.removed fun o => o == .key p k).quiet ((Quiet.refl _).setWalker { s.walker with
    calls := lowerCalls s.walker.calls (s.entry p k).calls } (.inl rfl) fun _ _ => rfl)
  refine counted.setEntry fun _ => ?_
  exact CrosspointSet.without.of_gone (gone := fun o => o == .key p k) (beq_self_eq_true _)

end State.HandsFree

/-! ### Key events (R64 to R67) -/

/-- An event has been handled as far as a walk that it asks for, of a key that holds nothing. -/
def State.Handled (r : State × KeyWork) : Prop :=
  r.1.HandsFree ∧ ∀ tag retry, r.2 = .walk tag retry → ∀ p k, tag = .key p k → ¬ (r.1.entry p k).holds

namespace State.HandsFree

variable {s : State}

theorem done (h : s.HandsFree) : State.Handled (s, .done) := ⟨h, nofun⟩

/-- An entry that keeps its state, or goes to a state without connections having had none. -/
theorem done_setEntry (h : s.HandsFree) {p : Port} {k : Key} {e : KeyEntry}
    (he : e.state = (s.entry p k).state ∨ ¬ (s.entry p k).holds) : State.Handled (s.setEntry p k e, .done) := by
  refine done (h.setEntry fun hn => h.keys p k ?_)
  rcases he with he | he
  · rwa [← KeyEntry.holds_congr he]
  · exact he

theorem press (h : s.HandsFree) (p : Port) (k : Key) (stamp : Stamp) : State.Handled (s.press p k stamp) := by
  have asked (hn : ¬ (s.entry p k).holds) : State.Handled
      (s.setEntry p k { s.entry p k with swallow := false, stamp := stamp }, .walk (.key p k) false) := by
    refine ⟨h.setEntry fun _ => h.keys p k hn, fun tag retry hw q j ht => ?_⟩
    cases hw
    cases ht
    have := s.walker.setEntry_entry_same p k { s.entry p k with swallow := false, stamp := stamp }
    rw [State.entry_eq, State.setEntry_walker, this]
    exact hn
  unfold State.press
  dsimp only
  split
  · exact asked (by simp_all [KeyEntry.holds])
  · exact asked (by simp_all [KeyEntry.holds])
  · exact asked (by simp_all [KeyEntry.holds])
  · exact h.done
  · exact (h.removeKey p k true).done

theorem releaseHeld (h : s.HandsFree) (p : Port) (k : Key) (stamp : Stamp) :
    State.Handled (s.releaseHeld p k stamp) := by
  unfold State.releaseHeld
  dsimp only
  split
  · exact (h.removeKey p k false).done
  · exact (h.setEntry fun hn => absurd (.inr rfl) hn).done

theorem release (h : s.HandsFree) (p : Port) (k : Key) (stamp : Stamp) : State.Handled (s.release p k stamp) := by
  unfold State.release
  dsimp only
  split
  · exact h.done_setEntry (.inl rfl)
  · split
    · exact h.releaseHeld p k stamp
    · exact h.done_setEntry (.inr (by simp_all [KeyEntry.holds]))
    · exact h.done_setEntry (.inr (by simp_all [KeyEntry.holds]))
    · exact h.done
    · exact h.done

theorem applyLevel (h : s.HandsFree) (l : KeyLevel) : State.Handled (s.applyLevel l) := by
  unfold State.applyLevel
  dsimp only
  split
  · split
    · split
      · exact h.done
      · exact h.press _ _ _
    all_goals exact h.done
  · split
    · exact h.releaseHeld _ _ _
    · exact h.done_setEntry (.inr (by simp_all [KeyEntry.holds]))
    · exact h.done_setEntry (.inr (by simp_all [KeyEntry.holds]))
    · exact h.done_setEntry (.inl rfl)
    · exact h.done_setEntry (.inl rfl)

theorem applyLevels (ls : List KeyLevel) (h : s.HandsFree) : (s.applyLevels ls).OwnersSound := by
  induction ls generalizing s with
  | nil => exact h.setJob trivial
  | cons l rest ih =>
    obtain ⟨h1, h2⟩ := h.applyLevel l
    unfold State.applyLevels
    dsimp only
    split
    · exact ih h1
    · rename_i tag retry hw
      exact h1.setJob (h2 tag retry hw)

theorem workOn {r : State × KeyWork} (h : State.Handled r) : (State.workOn r).OwnersSound := by
  obtain ⟨h1, h2⟩ := h
  unfold State.workOn
  split
  · exact h1.setJob trivial
  · rename_i tag retry hw
    exact h1.setJob (h2 tag retry hw)

theorem handle (h : s.HandsFree) (hs : s.OwnersSound) (e : KeyEvent) : (s.handle e).OwnersSound := by
  cases e with
  | press p k stamp =>
    simp only [State.handle]
    split
    · exact workOn (h.press p k stamp)
    · exact hs
  | release p k stamp =>
    simp only [State.handle]
    split
    · exact workOn (h.release p k stamp)
    · exact hs
  | state p bitmap stamp =>
    simp only [State.handle]
    split
    · exact h.applyLevels _
    · exact hs
  | cueOpen c =>
    simp only [State.handle]
    split
    · exact hs
    · exact workOn ⟨h, fun tag retry hw p k ht => by cases hw; cases ht⟩
  | retry p k =>
    unfold State.handle
    dsimp only
    split
    · rename_i hf
      refine workOn ⟨h, fun tag retry hw q j ht => ?_⟩
      cases hw
      cases ht
      have hf := hf.2
      unfold KeyEntry.failed at hf
      intro hh
      rcases hh with hh | hh <;> rw [hh] at hf <;> simp at hf
    · exact hs

end State.HandsFree

end Sys2Proof.Machine
end

section
/-!
PROOFS, the owners of slots under the walk, the installs and the removals (R71 to R76, R81, R82, R96, R107, R131).
-/

namespace Sys2Proof.Machine

open State (Quiet)

/-- The step keeps the owners sound. -/
def State.KeepsOwners (s t : State) : Prop := s.OwnersSound → t.OwnersSound

/-! ### Parts of a walk -/

/-- Making good the CALL hits that stand first raises call counts alone. -/
theorem State.Quiet.settleCalls {s t : State} (tag : Tag) (hs : List Hit) (ok : Bool) (h : s.Quiet t) :
    s.Quiet (State.settleCalls tag hs ok t).1 := by
  have raised {u : State} (hu : s.Quiet u) (p : Port) (k : Key) (x : Hit) : s.Quiet (u.raiseCall p k x) := by
    unfold State.raiseCall
    split
    · rename_i q _
      exact Quiet.setEntry (t := u.setWalker { u.walker with calls := adjust u.walker.calls q (· + 1) })
        (hu.setWalker _ (.inl rfl) fun _ _ => rfl) p k _ rfl
    · exact hu
  induction hs generalizing t ok with
  | nil => exact h
  | cons x rest ih =>
    unfold State.settleCalls
    split
    · cases tag with
      | key p k => exact ih true (raised h p k x)
      | cue c => exact ih ok h
    · exact h

theorem State.entry_setEntry_same (s : State) (p : Port) (k : Key) (e : KeyEntry) :
    (s.setEntry p k e).entry p k = e := by
  rw [State.entry_eq, State.setEntry_walker, Walker.setEntry_entry_same]

theorem State.fits_quiet {s t : State} (hq : s.Quiet t) {j : Job} (h : s.fits j) : t.fits j := by
  have holds (p : Port) (k : Key) (hn : ¬ (s.entry p k).holds) : ¬ (t.entry p k).holds := fun ht =>
    hn ((KeyEntry.holds_congr (hq.keys p k)).1 ht)
  cases j with
  | idle => trivial
  | waiting tag retry rest => exact fun p k ht => holds p k (h p k ht)
  | walking w rest =>
    cases hp : w.phase with
    | read =>
      rw [State.fits_read hp] at h ⊢
      exact fun p k ht => holds p k (h p k ht)
    | making hs ok =>
      rw [State.fits_making hp] at h ⊢
      obtain ⟨hsup, hkey, hleft⟩ := h
      refine ⟨hsup, fun p k ht => ?_, fun hne => ?_⟩
      · rw [hq.xps]
        exact ⟨(hq.keys p k).trans (hkey p k ht).1, (hkey p k ht).2⟩
      · obtain ⟨hc, hr⟩ := hleft hne
        exact ⟨fun c ht => hq.circuits c (hc c ht), fun p k ht hm => hr p k ht ((hq.requests _ rfl).1 hm)⟩

namespace State.HandsFree

variable {s : State}

theorem endWalk (h : s.HandsFree) (w : Walk) (rest : List KeyLevel) : (s.endWalk w rest).OwnersSound := by
  refine (h.quiet (Quiet.setDirectory (Quiet.setDirectory (Quiet.refl s) _ ?_) _ ?_)).applyLevels rest
  · exact .scrubs _
  · exact .refl

/-- A key whose walk found no hit holds nothing before it and after it. -/
theorem walkMissed (h : s.HandsFree) (w : Walk) (hw : ∀ p k, w.tag = .key p k → ¬ (s.entry p k).holds) :
    (s.walkMissed w).HandsFree := by
  unfold State.walkMissed
  dsimp only
  split
  · rename_i p k ht
    exact (h.setEntry fun _ => h.keys p k (hw p k ht)).quiet ((Quiet.refl _).offer _)
  · exact h.quiet ((Quiet.refl _).offer _)

/-- A key whose installs all failed owns no slot when it goes REFUSED (R73). -/
theorem walkOutcome (h : s.HandsFree) (w : Walk) (ok : Bool)
    (hw : ∀ p k, w.tag = .key p k → ok = false → s.xps.without (.key p k)) : (s.walkOutcome w ok).HandsFree := by
  have decided : (match w.tag with
      | .key p k =>
        if ok then s.setEntry p k { s.entry p k with state := .held, lamp := if w.busyHeld then .busy else .on }
        else (s.setEntry p k { s.entry p k with state := .refused, lamp := .busy }).report .slotExhausted (.port p)
      | .cue c => if ok then s else s.report .slotExhausted (.circuit c)).HandsFree := by
    split
    · rename_i p k ht
      split
      · exact h.setEntry fun hn => absurd (.inl rfl) hn
      · rename_i hok
        exact (h.setEntry fun _ => hw p k ht (by simpa using hok)).quiet ((Quiet.refl _).report _ _)
    · split
      · exact h
      · exact h.quiet ((Quiet.refl _).report _ _)
  unfold State.walkOutcome
  dsimp only
  split
  · exact decided.quiet ((Quiet.refl _).offer _)
  · exact decided

/-- A walk that acts makes its key HELD before its first install is sent; the slots stay (R72). -/
theorem startMaking (h : s.HandsFree) (w : Walk) : (s.startMaking w).1.HandsFree
    ∧ (s.startMaking w).1.xps = s.xps
    ∧ (∀ p k, w.tag = .key p k → ((s.startMaking w).1.entry p k).state = .held)
    ∧ (∀ c, s.circuitOwns c → (s.startMaking w).1.circuitOwns c)
    ∧ ∀ r, r.resets = true → (r ∈ (s.startMaking w).1.requests ↔ r ∈ s.requests) := by
  unfold State.startMaking
  dsimp only
  split
  · rename_i p k ht
    have hq := (Quiet.refl (s.setEntry p k { s.entry p k with mode := w.reading.mode, state := .held })).settleCalls
      w.tag w.reading.hits false
    refine ⟨(h.setEntry fun hn => absurd (.inl rfl) hn).quiet hq, hq.xps, fun q j hqj => ?_,
      fun c hc => hq.circuits c hc, hq.requests⟩
    cases ht.symm.trans hqj
    rw [hq.keys, State.entry_setEntry_same]
  · rename_i c ht
    have hq := (Quiet.refl s).settleCalls w.tag w.reading.hits false
    exact ⟨h.quiet hq, hq.xps, fun q j hqj => (nomatch ht.symm.trans hqj), hq.circuits, hq.requests⟩

/-- An install for a key that holds, of a row that is not to be reset, or for a circuit that may own slots. -/
theorem install (h : s.HandsFree) (r : Install) (hk : ∀ p k, r.owner = .key p k → (s.entry p k).holds)
    (hc : ∀ c, r.owner = .cue c → s.circuitOwns c)
    (hr : ∀ p k, r.owner = .key p k → Request.portRowReset p ∉ s.requests) : (s.install r).1.HandsFree := by
  have hq := s.install_quiet r
  have ha := State.Moved.install_abandoned r s
  generalize hx : (s.install r).1.xps = x at hq ha
  have without {o : Owner} (ho : o ≠ r.owner) (hw : s.xps.without o) : x.without o := hx ▸ hw.install ho
  have taken : (s.setXps x).HandsFree := { h with
    keys := fun p k hn => without (fun e => hn (hk p k e.symm)) (h.keys p k hn)
    circuits := fun c hn => without (fun e => hn (hc c e.symm)) (h.circuits c hn)
    abandoned := ha.trans h.abandoned
    rowReset := fun p hm k => without (fun e => hr p k e.symm hm) (h.rowReset p hm k) }
  exact taken.quiet hq

end State.HandsFree

theorem State.walkActs_unsuppressed {s : State} {w : Walk} (h : s.walkActs w = true) : w.suppressed = false := by
  simp only [State.walkActs, Bool.and_eq_true, Bool.not_eq_true'] at h
  exact h.1

theorem State.walkActs_cue {s : State} {w : Walk} {c : CircuitIx} (h : s.walkActs w = true) (ht : w.tag = .cue c) :
    s.circuitOwns c := by
  simp only [State.walkActs, ht, Bool.and_eq_true, bne_iff_ne, ne_eq] at h
  exact .inl h.2

theorem State.decisionHeld_key {s : State} {p : Port} {k : Key} (h : ¬ s.decisionHeld (.key p k) = true) :
    Request.portRowReset p ∉ s.requests := fun hm => h (by simp [State.decisionHeld, hm])

/-! ### The walker's commands -/

theorem owners_keyEventTake : Leads State.KeepsOwners .keyEventTake := by
  refine fun s => ⟨_, rfl, fun h => ?_⟩
  split
  · exact h
  · rename_i e rest _
    split
    · rename_i hm
      simp only [State.mayTake, State.resetPending, Bool.and_eq_true, Bool.not_eq_true', Bool.or_eq_false_iff,
        decide_eq_false_iff_not] at hm
      obtain ⟨-, ⟨h1, h2⟩, h3⟩ := hm
      have hq : s.Quiet (s.setWalker { s.walker with queue := rest }) :=
        (Quiet.refl s).setWalker _ (.inl rfl) fun _ _ => rfl
      exact ((h.handsFree h1 h2 h3).quiet hq).handle (h.quiet hq) e
    · exact h

theorem owners_walkStart (upsets : Upsets) : Leads State.KeepsOwners (.walkStart upsets) := by
  refine fun s => ⟨_, rfl, fun h => ?_⟩
  split
  · rename_i tag retry rest hj
    split
    · have hq : s.Quiet (s.setDirectory { s.directory with
          ram := (readWalk tag s.directory.region s.directory.scene (s.directory.ram.upsetAll upsets)).2.1
          turn := .either }) :=
        (Quiet.refl s).setDirectory _ ((TableRam.Reaches.upsetAll upsets).trans (.readWalk _ _ _ _))
      have fits : s.fits (.walking ⟨tag, retry,
          (readWalk tag s.directory.region s.directory.scene (s.directory.ram.upsetAll upsets)).1, .read, false,
          false⟩ rest) :=
        (State.fits_read rfl).2 fun p k => h.waiting tag retry rest p k hj
      refine State.OwnersSound.quiet ?_ ((Quiet.refl _).reportAll _)
      exact ((h.handsFree_of_busy (by rw [hj]; nofun)).quiet hq).setJob (State.fits_quiet hq fits)
    · exact h
  · exact h
  · exact h

theorem owners_walkEnd : Leads State.KeepsOwners .walkEnd := by
  refine fun s => ⟨_, rfl, fun h => ?_⟩
  split
  · rename_i w rest hj
    have free : s.HandsFree := h.handsFree_of_busy (by rw [hj]; nofun)
    have fits := h.fits_walking hj
    split
    · rename_i hp
      have hn := (State.fits_read hp).1 fits
      split
      · exact h
      · rename_i hd
        split
        · rename_i hacts
          split
          · exact (free.walkMissed w hn).endWalk w rest
          · obtain ⟨hfree, hxps, hheld, hcirc, hreq⟩ := free.startMaking w
            have without : ∀ p k, w.tag = .key p k → (s.startMaking w).1.xps.without (.key p k) := fun p k ht => by
              rw [hxps]
              exact h.keys p k (hn p k ht)
            dsimp only
            split
            · exact (hfree.walkOutcome w _ fun p k ht _ => without p k ht).endWalk w rest
            · refine hfree.setJob ((State.fits_making rfl).2 ⟨State.walkActs_unsuppressed hacts,
                fun p k ht => ⟨hheld p k ht, fun _ => without p k ht⟩, fun _ => ⟨fun c ht => ?_, fun p k ht hm => ?_⟩⟩)
              · exact hcirc c (State.walkActs_cue hacts ht)
              · rw [ht] at hd
                exact State.decisionHeld_key hd ((hreq _ rfl).1 hm)
        · exact free.endWalk w rest
    · rename_i ok hp
      obtain ⟨-, hkey, -⟩ := (State.fits_making hp).1 fits
      exact (free.walkOutcome w ok fun p k ht => (hkey p k ht).2).endWalk w rest
    · exact h
  · exact h
  · exact h

/-- The crosspoint set takes a hit's install, and what the walk's work asks of the state stays (R72). -/
theorem State.HandsFree.installHit {s : State} (h : s.HandsFree) {w : Walk} {rest : List KeyLevel} {x : Hit}
    {hs : List Hit} {ok : Bool} (hp : w.phase = .making (x :: hs) ok) (hf : s.fits (.walking w rest)) :
    (s.installHit w.tag x).1.HandsFree
      ∧ (∀ p k, ((s.installHit w.tag x).1.entry p k).state = (s.entry p k).state)
      ∧ (∀ c, s.circuitOwns c → (s.installHit w.tag x).1.circuitOwns c)
      ∧ (∀ r : Request, r.resets = true → (r ∈ (s.installHit w.tag x).1.requests ↔ r ∈ s.requests))
      ∧ ((s.installHit w.tag x).2 = false → (s.installHit w.tag x).1 = s) := by
  unfold State.installHit
  split
  · rename_i r hr
    obtain ⟨-, ho⟩ := Hit.install?_gain hr
    obtain ⟨-, hkey, hleft⟩ := (State.fits_making hp).1 hf
    obtain ⟨hcue, hrow⟩ := hleft nofun
    have tagKey {p : Port} {k : Key} (e : r.owner = .key p k) : w.tag = .key p k := by
      rw [ho] at e
      cases ht : w.tag <;> rw [ht] at e <;> cases e
      rfl
    have tagCue {c : CircuitIx} (e : r.owner = .cue c) : w.tag = .cue c := by
      rw [ho] at e
      cases ht : w.tag <;> rw [ht] at e <;> cases e
      rfl
    have hq := s.install_quiet r
    exact ⟨h.install r (fun p k e => .inl (hkey p k (tagKey e)).1) (fun c e => hcue c (tagCue e))
      (fun p k e => hrow p k (tagKey e)), hq.keys, hq.circuits, hq.requests, State.install_failed⟩
  · exact ⟨h, fun _ _ => rfl, fun _ => id, fun _ _ => .rfl, fun _ => rfl⟩

theorem owners_crosspointInstall : Leads State.KeepsOwners .crosspointInstall := by
  refine fun s => ⟨_, rfl, fun h => ?_⟩
  split
  · rename_i w rest hj
    split
    · rename_i x hs ok hp
      have fits := h.fits_walking hj
      obtain ⟨hsup, hkey, hleft⟩ := (State.fits_making hp).1 fits
      obtain ⟨hcue, hrow⟩ := hleft nofun
      obtain ⟨hfree, hentry, hcirc, hreq, hfail⟩ := (h.handsFree_of_busy (by rw [hj]; nofun)).installHit hp fits
      have hq := (Quiet.refl (s.installHit w.tag x).1).settleCalls w.tag hs (ok || (s.installHit w.tag x).2)
      obtain ⟨-, -, hok⟩ := (State.Handles.refl (s.installHit w.tag x).1).settleCalls w.tag hs
        (ok || (s.installHit w.tag x).2)
      refine (hfree.quiet hq).setJob (State.fits_quiet hq ((State.fits_making rfl).2
        ⟨hsup, fun p k ht => ⟨(hentry p k).trans (hkey p k ht).1, fun hno => ?_⟩, fun _ =>
          ⟨fun c ht => hcirc c (hcue c ht), fun p k ht hm => hrow p k ht ((hreq _ rfl).1 hm)⟩⟩))
      have failed : (ok || (s.installHit w.tag x).2) = false := by
        by_contra hn
        rw [hok (by simpa only [Bool.not_eq_false] using hn)] at hno
        cases hno
      obtain ⟨hok', hout⟩ := Bool.or_eq_false_iff.1 failed
      rw [hfail hout]
      exact (hkey p k ht).2 hok'
    · exact h
    · exact h
  · rename_i r ha _
    have taken : (s.setXps (s.install r).1.xps).OwnersSound := by
      refine h.setXps (fun o _ hw => ?_) fun q hq => ?_
      · by_cases ho : o = r.owner
        · exact .inr ⟨r, ha, ho.symm⟩
        · exact .inl (hw.install ho)
      · rwa [State.Moved.install_abandoned] at hq
    exact (taken.quiet (s.install_quiet r)).setXps (fun _ _ hw => .inl hw) nofun
  · exact h

/-! ### Removals and resets -/

theorem owners_removeKey (p : Port) (k : Key) : Leads State.KeepsOwners (.removeKey p k) := by
  refine fun s => ⟨_, rfl, fun h => ?_⟩
  split
  · exact h
  · split
    · exact h.removed _
    · exact h

/-- The walker's row reset is handed over once no slot lists a key of the port and none will (R131). -/
theorem State.OwnersSound.handRow {s : State} (h : s.OwnersSound) {p : Port} (hp : ∀ k, s.xps.without (.key p k)
    ∧ (∀ r, s.xps.abandoned = some r → r.owner ≠ .key p k)
    ∧ ∀ w rest x hs ok, s.walker.job = .walking w rest → w.tag = .key p k → w.phase ≠ .making (x :: hs) ok) :
    (s.hand (.portRowReset p)).OwnersSound := by
  have before {r : Request} (hm : r ∈ (s.hand (.portRowReset p)).requests) (hr : r ≠ .portRowReset p) :
      r ∈ s.requests := by
    rw [State.hand_requests] at hm
    rcases List.mem_append.1 hm with hm | hm
    · exact hm
    · exact absurd (List.mem_singleton.1 hm) hr
  have owns {c : CircuitIx} (hc : s.circuitOwns c) : (s.hand (.portRowReset p)).circuitOwns c :=
    hc.imp_right (List.mem_append_left _)
  exact { h with
    circuits := fun c hc => h.circuits c fun hs => hc (owns hs)
    resetIdle := fun hr => h.resetIdle
      (hr.imp (before · nofun) (Or.imp (before · nofun) (before · nofun)))
    abandonedReset := fun ha => List.mem_append_left _ (h.abandonedReset ha)
    walkerReset := fun hr => h.walkerReset (before hr nofun)
    circuitAbort := fun hr => h.circuitAbort (before hr nofun)
    rowReset := fun q hq => by
      by_cases e : q = p
      · exact e ▸ hp
      · exact h.rowReset q (before hq fun he => e (by cases he; rfl))
    abandonedOwner := fun r hr => ⟨(h.abandonedOwner r hr).1, fun c hc => owns ((h.abandonedOwner r hr).2 c hc)⟩
    makingCue := fun w rest x hs ok c hj ht hp => owns (h.makingCue w rest x hs ok c hj ht hp) }

/-- Installs are left of a walk that has one to send, or of an abandoned walk that has sent one. -/
theorem State.installsLeft_iff {s : State} {tag : Tag → Bool} {owner : Owner → Bool} :
    s.installsLeft tag owner = true ↔ (∃ w rest x hs ok, s.walker.job = .walking w rest ∧ tag w.tag = true
        ∧ w.phase = .making (x :: hs) ok) ∨ ∃ r, s.xps.abandoned = some r ∧ owner r.owner = true := by
  have left (w : Walk) : w.phase.hitsLeft = true ↔ ∃ x hs ok, w.phase = .making (x :: hs) ok := by
    cases hp : w.phase with
    | read => simp [WalkPhase.hitsLeft]
    | making hs ok => cases hs <;> simp [WalkPhase.hitsLeft]
  rw [State.installsLeft, Bool.or_eq_true]
  refine or_congr ?_ (by cases s.xps.abandoned <;> simp)
  cases s.walker.job with
  | idle | waiting => simp [Job.walk?]
  | walking w rest => simp [Job.walk?, left]

/-- With no install left for an owner, none is abandoned for it and no walk has one to send. -/
theorem State.installsLeft_false {s : State} {tag : Tag → Bool} {owner : Owner → Bool}
    (h : ¬ s.installsLeft tag owner = true) :
    (∀ r, s.xps.abandoned = some r → owner r.owner = false)
      ∧ ∀ w rest x hs ok, s.walker.job = .walking w rest → tag w.tag = true → w.phase ≠ .making (x :: hs) ok :=
  ⟨fun r hr => Bool.eq_false_iff.2 fun ho => h (State.installsLeft_iff.2 (.inr ⟨r, hr, ho⟩)),
    fun w rest x hs ok hj ht hp => h (State.installsLeft_iff.2 (.inl ⟨w, rest, x, hs, ok, hj, ht, hp⟩))⟩

/-- A request leaves other than those on which a claim to slots or an abandoned install rests. -/
theorem State.OwnersSound.erase {s : State} (h : s.OwnersSound) {r : Request} (hr : ∀ c, r ≠ .removeCircuit c)
    (hr' : r ≠ .removeKeysAndCues) : (s.setRequests (s.requests.erase r)).OwnersSound := by
  have before {q : Request} (hq : q ∈ s.requests.erase r) : q ∈ s.requests := List.mem_of_mem_erase hq
  have owns {c : CircuitIx} (hc : s.circuitOwns c) : (s.setRequests (s.requests.erase r)).circuitOwns c :=
    hc.imp_right (List.mem_erase_of_ne (hr c).symm).2
  exact { h with
    circuits := fun c hc => h.circuits c fun hs => hc (owns hs)
    resetIdle := fun hq => h.resetIdle (hq.imp before (Or.imp before before))
    abandonedReset := fun ha => (List.mem_erase_of_ne hr'.symm).2 (h.abandonedReset ha)
    walkerReset := fun hq => h.walkerReset (before hq)
    circuitAbort := fun hq => h.circuitAbort (before hq)
    rowReset := fun p hq => h.rowReset p (before hq)
    abandonedOwner := fun a ha => ⟨(h.abandonedOwner a ha).1, fun c ho => owns ((h.abandonedOwner a ha).2 c ho)⟩
    makingCue := fun w rest x hs ok c hj hp ht => owns (h.makingCue w rest x hs ok c hj hp ht) }

theorem owners_removePortKeys (p : Port) : Leads State.KeepsOwners (.removePortKeys p) := by
  refine fun s => ⟨_, rfl, fun h => ?_⟩
  split
  · exact h
  · rename_i hl
    obtain ⟨hab, hwalk⟩ := State.installsLeft_false hl
    rcases s.take_cases (.removePortKeys p) fun s =>
      (s.setXps (s.xps.remove (Owner.isKeyOf p))).hand (.portRowReset p) with ⟨-, e⟩ | ⟨-, e⟩ <;> rw [e]
    · have sent := h.quiet ((Quiet.refl s).setRequests (s.requests.erase (.removePortKeys p)) fun r hr =>
        List.mem_erase_of_ne (by rintro rfl; cases hr))
      refine (sent.removed (Owner.isKeyOf p)).handRow fun k => ⟨?_, fun r hr ho => ?_, fun w rest x hs ok hj ht => ?_⟩
      · exact CrosspointSet.without.of_gone (gone := Owner.isKeyOf p) (by simp [Owner.isKeyOf])
      · rw [State.setXps_xps, CrosspointSet.remove_abandoned] at hr
        have := hab r hr
        simp [ho, Owner.isKeyOf] at this
      · exact hwalk w rest x hs ok hj (by simp [ht, Tag.ofPort])
    · exact h

/-- A taken remove circuit request (R96): no slot lists the circuit, no install for it is left. -/
theorem State.OwnersSound.circuitRemoved {s : State} (h : s.OwnersSound) {c : CircuitIx} {x : CrosspointSet}
    (hx : ∀ o, s.xps.without o → x.without o) (hc : x.without (.cue c)) (ha : x.abandoned = s.xps.abandoned)
    (hab : ∀ r, s.xps.abandoned = some r → r.owner ≠ .cue c)
    (hwalk : ∀ w rest y hs ok, s.walker.job = .walking w rest → w.tag = .cue c → w.phase ≠ .making (y :: hs) ok) :
    ((s.setRequests (s.requests.erase (.removeCircuit c))).setXps x).OwnersSound := by
  have reset {q : Request} (hq : q.resets = true) : q ≠ .removeCircuit c := by rintro rfl; cases hq
  have before {q : Request} (hm : q ∈ s.requests.erase (.removeCircuit c)) : q ∈ s.requests := List.mem_of_mem_erase hm
  have owns {d : CircuitIx} (hd : d ≠ c) (hs : s.circuitOwns d) :
      ((s.setRequests (s.requests.erase (.removeCircuit c))).setXps x).circuitOwns d :=
    hs.imp_right fun hm => (List.mem_erase_of_ne fun e => hd (by cases e; rfl)).2 hm
  exact {
    keys := fun p k hk => hx _ (h.keys p k hk)
    circuits := fun d hd => by
      by_cases e : d = c
      · exact e ▸ hc
      · exact hx _ (h.circuits d fun hs => hd (owns e hs))
    resetIdle := fun hr => h.resetIdle (hr.imp before (Or.imp before before))
    abandonedReset := fun hn => (List.mem_erase_of_ne (reset rfl)).2 (h.abandonedReset (by rwa [← ha]))
    walkerReset := fun hr p k => by
      obtain ⟨hw, hn⟩ := h.walkerReset (before hr) p k
      exact ⟨hx _ hw, fun r hr => hn r (ha ▸ hr)⟩
    circuitAbort := fun hr d => by
      obtain ⟨hw, hn⟩ := h.circuitAbort (before hr) d
      exact ⟨hx _ hw, fun r hr => hn r (ha ▸ hr)⟩
    rowReset := fun p hr k => by
      obtain ⟨hw, hn, hj⟩ := h.rowReset p (before hr) k
      exact ⟨hx _ hw, fun r hr => hn r (ha ▸ hr), hj⟩
    abandonedOwner := fun r hr => by
      have hr : s.xps.abandoned = some r := ha ▸ hr
      obtain ⟨hk, hcue⟩ := h.abandonedOwner r hr
      exact ⟨hk, fun d hd => owns (fun e => hab r hr (e ▸ hd)) (hcue d hd)⟩
    waiting := h.waiting
    reading := h.reading
    making := fun w rest hs ok p k hj hp ht => by
      obtain ⟨hheld, hw⟩ := h.making w rest hs ok p k hj hp ht
      exact ⟨hheld, fun hok => hx _ (hw hok)⟩
    unsuppressed := h.unsuppressed
    makingCue := fun w rest y hs ok d hj hp ht =>
      owns (fun e => hwalk w rest y hs ok hj (e ▸ ht) hp) (h.makingCue w rest y hs ok d hj hp ht) }

theorem owners_removeCircuit (c : CircuitIx) : Leads State.KeepsOwners (.removeCircuit c) := by
  refine fun s => ⟨_, rfl, fun h => ?_⟩
  split
  · exact h
  · rename_i hl
    obtain ⟨hab, hwalk⟩ := State.installsLeft_false hl
    rcases s.take_cases (.removeCircuit c) fun s => s.setXps (s.xps.remove (Owner.isCue c)) with
      ⟨-, e⟩ | ⟨-, e⟩ <;> rw [e]
    · refine h.circuitRemoved (fun _ hw => hw.remove _) ?_ (CrosspointSet.remove_abandoned _ _) (fun r hr ho => ?_)
        fun w rest x hs ok hj ht => hwalk w rest x hs ok hj (by simp [ht])
      · exact CrosspointSet.without.of_gone (gone := Owner.isCue c) (by simp [Owner.isCue])
      · have := hab r hr
        simp [ho, Owner.isCue] at this
    · exact h

/-- With only CONTROLLER owners, the walker idle and no install abandoned, the owners are sound. -/
theorem State.ownersSound_of_bare {s : State} (hw : ∀ o : Owner, o.isController = false → s.xps.without o)
    (ha : s.xps.abandoned = none) (hj : s.walker.job = .idle) : s.OwnersSound := by
  have none {r : Install} (hr : s.xps.abandoned = some r) : False := by
    rw [ha] at hr
    cases hr
  have busy {j : Job} (h : s.walker.job = j) (hn : j ≠ .idle) : False := hn (h.symm.trans hj)
  exact {
    keys := fun _ _ _ => hw _ rfl
    circuits := fun _ _ => hw _ rfl
    resetIdle := fun _ => hj
    abandonedReset := fun hn => absurd ha hn
    walkerReset := fun _ _ _ => ⟨hw _ rfl, fun _ hr => (none hr).elim⟩
    circuitAbort := fun _ _ => ⟨hw _ rfl, fun _ hr => (none hr).elim⟩
    rowReset := fun _ _ _ => ⟨hw _ rfl, fun _ hr => (none hr).elim, fun _ _ _ _ _ h => (busy h nofun).elim⟩
    abandonedOwner := fun _ hr => (none hr).elim
    waiting := fun _ _ _ _ _ h => (busy h nofun).elim
    reading := fun _ _ _ _ h => (busy h nofun).elim
    making := fun _ _ _ _ _ _ h => (busy h nofun).elim
    unsuppressed := fun _ _ _ _ h => (busy h nofun).elim
    makingCue := fun _ _ _ _ _ _ h => (busy h nofun).elim }

theorem owners_removeKeysAndCues : Leads State.KeepsOwners .removeKeysAndCues := by
  refine fun s => ⟨_, rfl, fun h => ?_⟩
  rcases s.take_cases .removeKeysAndCues fun s =>
    ((s.setXps { s.xps.remove (fun o => !o.isController) with abandoned := none }).hand
      .walkerReset).hand .circuitAbort with ⟨hm, e⟩ | ⟨-, e⟩ <;> rw [e]
  · have gone (o : Owner) (ho : o.isController = false) : (s.xps.remove fun o => !o.isController).without o :=
      CrosspointSet.without.of_gone (by rw [ho]; rfl)
    rw [State.setRequests_xps]
    generalize (s.xps.remove fun o => !o.isController) = x at gone
    exact State.ownersSound_of_bare gone rfl (h.resetIdle (.inl hm))
  · exact h

/-- A row reset gives the keys of its port their initial entries and leaves the others. -/
theorem Walker.resetRow_entry (w : Walker) (p q : Port) (k : Key) :
    (w.resetRow p).entry q k = if p = q then KeyEntry.initial else w.entry q k := by
  unfold Walker.entry Walker.resetRow
  simp only [Fin.getElem_fin, put_get, Fin.ext_iff]
  split
  · simp
  · rfl

/-- The row of a port is reset that no slot lists, and of which no walk makes hits good. -/
theorem State.OwnersSound.resetRow {s : State} (h : s.OwnersSound) {p : Port} (hfree : s.rowFree p = true)
    (row : ∀ k, s.xps.without (.key p k) ∧ ∀ r, s.xps.abandoned = some r → r.owner ≠ .key p k) :
    (s.setWalker (s.walker.resetRow p)).OwnersSound := by
  have entry (q : Port) (k : Key) : (s.setWalker (s.walker.resetRow p)).entry q k =
      if p = q then KeyEntry.initial else s.entry q k := s.walker.resetRow_entry p q k
  have other {q : Port} (hq : p ≠ q) (k : Key) : (s.setWalker (s.walker.resetRow p)).entry q k = s.entry q k := by
    rw [entry, if_neg hq]
  have nothing {q : Port} {k : Key} (hn : ¬ (s.entry q k).holds) :
      ¬ ((s.setWalker (s.walker.resetRow p)).entry q k).holds := by
    rw [entry]
    split
    · simp [KeyEntry.holds, KeyEntry.initial]
    · exact hn
  exact { h with
    keys := fun q k hk => by
      by_cases hq : p = q
      · exact hq ▸ (row k).1
      · exact h.keys q k (by rwa [other hq] at hk)
    abandonedOwner := fun r hr => by
      obtain ⟨hk, hc⟩ := h.abandonedOwner r hr
      refine ⟨fun q k ho => ?_, hc⟩
      have hq : p ≠ q := fun e => (row k).2 r hr (e ▸ ho)
      rw [other hq]
      exact hk q k ho
    waiting := fun tag retry rest q k hj ht => nothing (h.waiting tag retry rest q k hj ht)
    reading := fun w rest q k hj hp ht => nothing (h.reading w rest q k hj hp ht)
    making := fun w rest hs ok q k hj hp ht => by
      have hj : s.walker.job = .walking w rest := hj
      have hq : p ≠ q := by
        rintro rfl
        simp [State.rowFree, hj, ht, hp, Tag.ofPort, WalkPhase.isMaking] at hfree
      rw [other hq]
      exact h.making w rest hs ok q k hj hp ht }

theorem owners_portRowReset (p : Port) : Leads State.KeepsOwners (.portRowReset p) := by
  refine fun s => ⟨_, rfl, fun h => ?_⟩
  split
  · rename_i hfree
    rcases s.take_cases (.portRowReset p) fun s => s.setWalker (s.walker.resetRow p) with ⟨hm, e⟩ | ⟨-, e⟩ <;> rw [e]
    · refine (h.erase (r := .portRowReset p) nofun nofun).resetRow hfree fun k => ?_
      obtain ⟨hw, ha, -⟩ := h.rowReset p hm k
      exact ⟨hw, ha⟩
    · exact h
  · exact h

/-- Every key takes its initial entry once no slot lists a key and the walker has nothing in hand (R82). -/
theorem State.OwnersSound.resetKeys {s : State} (h : s.OwnersSound) (w : Walker) (hj : w.job = .idle)
    (keys : ∀ p k, s.xps.without (.key p k) ∧ ∀ r, s.xps.abandoned = some r → r.owner ≠ .key p k) :
    (s.setWalker w).OwnersSound := by
  have busy {j : Job} (hb : w.job = j) (hn : j ≠ .idle) : False := hn (hb.symm.trans hj)
  exact { h with
    keys := fun p k _ => (keys p k).1
    resetIdle := fun _ => hj
    rowReset := fun p hr k => ⟨(keys p k).1, (keys p k).2, fun _ _ _ _ _ hb => (busy hb nofun).elim⟩
    abandonedOwner := fun r hr => ⟨fun p k ho => absurd ho ((keys p k).2 r hr), (h.abandonedOwner r hr).2⟩
    waiting := fun _ _ _ _ _ hb => (busy hb nofun).elim
    reading := fun _ _ _ _ hb => (busy hb nofun).elim
    making := fun _ _ _ _ _ _ hb => (busy hb nofun).elim
    unsuppressed := fun _ _ _ _ hb => (busy hb nofun).elim
    makingCue := fun _ _ _ _ _ _ hb => (busy hb nofun).elim }

theorem owners_walkerReset : Leads State.KeepsOwners .walkerReset := by
  refine fun s => ⟨_, rfl, fun h => ?_⟩
  rcases s.take_cases .walkerReset fun s =>
    (s.setWalker { s.walker with keys := Walker.initial.keys, calls := Walker.initial.calls }).resetTaken with
    ⟨hm, e⟩ | ⟨-, e⟩ <;> rw [e]
  · refine State.OwnersSound.quiet ?_ (Quiet.resetTaken (Quiet.refl _))
    exact (h.erase (r := .walkerReset) nofun nofun).resetKeys _ (h.resetIdle (.inr (.inl hm))) (h.walkerReset hm)
  · exact h

/-- No circuit owns a slot, or will: what the abort of the circuits finds (R107). -/
structure State.CuesGone (s : State) : Prop where
  sound : s.OwnersSound
  without : ∀ c, s.xps.without (.cue c)
  abandoned : ∀ r, s.xps.abandoned = some r → ∀ c, r.owner ≠ .cue c
  idle : s.walker.job = .idle

namespace State.CuesGone

variable {s t : State}

theorem quiet (h : s.CuesGone) (hq : s.Quiet t) : t.CuesGone where
  sound := h.sound.quiet hq
  without := hq.xps ▸ h.without
  abandoned := hq.xps ▸ h.abandoned
  idle := Job.Alike.idle (h.idle ▸ hq.job)

theorem setCircuit (h : s.CuesGone) (c : CircuitIx) (x : Circuit) : (s.setCircuit c x).CuesGone :=
  { h with
    sound := { h.sound with
      circuits := fun d _ => h.without d
      abandonedOwner := fun r hr => ⟨(h.sound.abandonedOwner r hr).1, fun d hd => absurd hd (h.abandoned r hr d)⟩
      makingCue := fun _ _ _ _ _ _ hj => by
        have hj := h.idle.symm.trans hj
        cases hj } }

theorem abortCircuit (h : s.CuesGone) (c : CircuitIx) : (s.abortCircuit c).CuesGone := by
  unfold State.abortCircuit
  dsimp only
  split
  · exact h
  · exact (h.setCircuit c _).quiet ((Quiet.refl _).offerCueEvent _ _)

theorem abortAll (cs : List CircuitIx) (h : s.CuesGone) : (cs.foldl State.abortCircuit s).CuesGone := by
  induction cs generalizing s with
  | nil => exact h
  | cons c rest ih => exact ih (h.abortCircuit c)

end State.CuesGone

theorem owners_circuitAbort : Leads State.KeepsOwners .circuitAbort := by
  refine fun s => ⟨_, rfl, fun h => ?_⟩
  rcases s.take_cases .circuitAbort fun s => ((List.finRange 24).foldl State.abortCircuit s).resetTaken with
    ⟨hm, e⟩ | ⟨-, e⟩ <;> rw [e]
  · have gone : (s.setRequests (s.requests.erase .circuitAbort)).CuesGone := {
      sound := h.erase nofun nofun
      without := fun c => (h.circuitAbort hm c).1
      abandoned := fun r hr c => (h.circuitAbort hm c).2 r hr
      idle := h.resetIdle (.inr (.inr hm)) }
    exact (gone.abortAll _).sound.quiet (Quiet.resetTaken (Quiet.refl _))
  · exact h

end Sys2Proof.Machine
end

section
/-!
PROOFS, the owners of slots under soft reset and the controller's commands, and with that O56.
-/

namespace Sys2Proof.Machine

open State (Quiet)

theorem owners_pinReset (straps : Fin 8) : Leads State.KeepsOwners (.pinReset straps) := fun s => ⟨_, rfl, fun _ => by
  refine State.ownersSound_of_bare (fun o _ i c hc => ?_) rfl rfl
  simp [State.initial, CrosspointSet.initial] at hc⟩

/-- A walk is abandoned with the install that it may have sent (R82): what that install asks for held of the walk. -/
theorem State.OwnersSound.softReset {s t : State} (h : s.OwnersSound) (hx : t.xps.slots = s.xps.slots)
    (ha : t.xps.abandoned = s.walker.job.sentInstall) (hj : t.walker.job = .idle)
    (hk : t.walker.keys = s.walker.keys) (hc : t.circuits = s.circuits)
    (hr : t.requests = s.requests ++ resetRequests) : t.OwnersSound := by
  have without {o : Owner} (hw : s.xps.without o) : t.xps.without o := fun i c => hx ▸ hw i c
  have entry (p : Port) (k : Key) : t.entry p k = s.entry p k := by
    simp only [State.entry_eq, Walker.entry, hk]
  have owns {c : CircuitIx} (hs : s.circuitOwns c) : t.circuitOwns c := by
    unfold State.circuitOwns
    rw [hc, hr]
    exact hs.imp_right (List.mem_append_left _)
  have before {q : Request} (hm : q ∈ t.requests) (hq : q ∉ resetRequests) : q ∈ s.requests :=
    (List.mem_append.1 (hr ▸ hm)).resolve_right hq
  have busy {j : Job} (hb : t.walker.job = j) (hn : j ≠ .idle) : False := hn (hb.symm.trans hj)
  have stopped (hi : s.walker.job = .idle) {r : Install} (hs : t.xps.abandoned = some r) : False := by
    rw [ha, hi] at hs
    cases hs
  exact {
    keys := fun p k hn => without (h.keys p k (entry p k ▸ hn))
    circuits := fun c hn => without (h.circuits c fun hs => hn (owns hs))
    resetIdle := fun _ => hj
    abandonedReset := fun _ => hr ▸ List.mem_append_right _ (List.mem_cons_self ..)
    walkerReset := fun hm p k => by
      have hm := before hm (by decide)
      exact ⟨without (h.walkerReset hm p k).1, fun r hs => (stopped (h.resetIdle (.inr (.inl hm))) hs).elim⟩
    circuitAbort := fun hm c => by
      have hm := before hm (by decide)
      exact ⟨without (h.circuitAbort hm c).1, fun r hs => (stopped (h.resetIdle (.inr (.inr hm))) hs).elim⟩
    rowReset := fun p hm k => by
      obtain ⟨hw, -, hwalk⟩ := h.rowReset p (before hm (by simp [resetRequests])) k
      refine ⟨without hw, fun r hs ho => ?_, fun _ _ _ _ _ hb => (busy hb nofun).elim⟩
      obtain ⟨w, rest, x, xs, ok, hw, hp, hi⟩ := Job.sentInstall_eq (ha ▸ hs)
      rw [(Hit.install?_gain hi).2] at ho
      refine hwalk w rest x xs ok hw ?_ hp
      cases ht : w.tag <;> rw [ht] at ho <;> cases ho
      rfl
    abandonedOwner := fun r hs => by
      obtain ⟨w, rest, x, xs, ok, hw, hp, hi⟩ := Job.sentInstall_eq (ha ▸ hs)
      rw [(Hit.install?_gain hi).2]
      refine ⟨fun p k ho => ?_, fun c ho => ?_⟩ <;> cases ht : w.tag <;> rw [ht] at ho <;> cases ho
      · rw [entry]
        exact (h.making w rest _ ok p k hw hp ht).1
      · exact owns (h.makingCue w rest x xs ok c hw hp ht)
    waiting := fun _ _ _ _ _ hb => (busy hb nofun).elim
    reading := fun _ _ _ _ hb => (busy hb nofun).elim
    making := fun _ _ _ _ _ _ hb => (busy hb nofun).elim
    unsuppressed := fun _ _ _ _ hb => (busy hb nofun).elim
    makingCue := fun _ _ _ _ _ _ hb => (busy hb nofun).elim }

theorem owners_softReset : Leads State.KeepsOwners .softReset := by
  refine fun s => ⟨_, rfl, fun h => h.begin fun ps => ?_⟩
  rw [softReset_eq]
  exact h.softReset rfl rfl rfl rfl rfl rfl

/-! ### The controller's commands -/

/-- The slots change, and list no owner that they did not list. -/
theorem State.OwnersSound.fewer {s : State} (h : s.OwnersSound) {x : CrosspointSet}
    (hx : ∀ o, s.xps.without o → x.without o) (ha : x.abandoned = s.xps.abandoned) : (s.setXps x).OwnersSound :=
  h.setXps (fun o _ hw => .inl (hx o hw)) fun _ hr => ha ▸ hr

theorem owners_slotEnable : Leads State.KeepsOwners .slotEnable := by
  refine fun s => ⟨_, rfl, fun h => h.begin fun ps => ?_⟩
  unfold slotEnable
  dsimp only
  split
  · exact h.answer _
  · refine (h.fewer (fun o hw i c hc => ?_) ?_).answer _
    · simp only [Fin.getElem_fin, each_get] at hc
      split at hc
      · cases hc
      · exact hw i c hc
    · rfl

theorem Connection.busyRequests_unwatched {c : Connection} {r : Request} (h : r ∈ c.busyRequests) :
    r.watched = false := by
  unfold Connection.busyRequests at h
  obtain ⟨o, -, ho⟩ := List.mem_filterMap.1 h
  cases o <;> cases ho
  rfl

/-- Asking for BUSY lamps is quiet. -/
theorem State.Quiet.askBusy (s : State) (c : Connection) : s.Quiet (c.busyRequests.foldl State.hand s) := by
  rw [State.foldl_hand]
  refine (Quiet.refl s).setRequests _ fun q hq => ?_
  have : q ∉ c.busyRequests := fun hm => by
    rw [Connection.busyRequests_unwatched hm] at hq
    cases hq
  simp [this]

theorem State.OwnersSound.retired {s u : State} (h : u.OwnersSound) (hx : u.xps = s.xps) (i : SlotIx) :
    (u.setXps (s.xps.setSlot i .retired)).OwnersSound :=
  h.fewer (hx ▸ fun _ hw => CrosspointSet.without.setSlot hw nofun) (by rw [CrosspointSet.setSlot_abandoned, hx])

theorem owners_slotRetire : Leads State.KeepsOwners .slotRetire := by
  refine fun s => ⟨_, rfl, fun h => h.begin fun ps => ?_⟩
  unfold slotRetire
  split
  · exact h.answer _
  · rename_i i _
    refine State.OwnersSound.answer ?_ _
    unfold State.retire
    dsimp only
    split
    · rename_i c _
      exact (h.quiet (Quiet.askBusy s c)).retired (Quiet.askBusy s c).xps i
    · split
      · exact (h.retired rfl i).quiet ((Quiet.refl _).offer _)
      · exact h.retired rfl i
    · exact h.retired rfl i
    · exact h

theorem owners_installCrosspoint : Leads State.KeepsOwners .installCrosspoint := by
  refine fun s => ⟨_, rfl, fun h => h.begin fun ps => ?_⟩
  have installed (r : Install) (hr : r.owner.isController = true) : (s.install r).1.OwnersSound := by
    refine State.OwnersSound.quiet ?_ (s.install_quiet r)
    refine h.setXps (fun o ho hw => .inl (hw.install ?_)) fun _ ha => State.Moved.install_abandoned r s ▸ ha
    rintro rfl
    rw [hr] at ho
    cases ho
  unfold installCrosspoint
  dsimp only
  split
  · exact (installed _ rfl).answer _
  · exact h.answer _

theorem owners_removeCrosspoint : Leads State.KeepsOwners .removeCrosspoint := by
  refine fun s => ⟨_, rfl, fun h => h.begin fun ps => ?_⟩
  unfold removeCrosspoint
  split
  · exact h.answer _
  · rename_i i _
    split
    · rename_i c hc
      split
      · refine (h.fewer (fun o hw => hw.setSlot fun d hd => ?_) (CrosspointSet.setSlot_abandoned ..)).answer _
        rcases Slot.remove_eq_live hd with ⟨e, -⟩ | ⟨d', e, -, rfl⟩ <;> cases e
        · exact hw i _ hc
        · exact fun hm => hw i _ hc (List.mem_of_mem_filter hm)
      · exact h.answer _
    all_goals exact h.answer _

theorem owners_setGain : Leads State.KeepsOwners .setGain := by
  refine fun s => ⟨_, rfl, fun h => h.begin fun ps => ?_⟩
  unfold setGain
  dsimp only
  split
  · exact h.answer _
  · split
    · rename_i c hc
      refine (h.fewer (fun o hw => hw.setSlot fun d hd => ?_) (CrosspointSet.setSlot_abandoned ..)).answer _
      cases hd
      exact hw _ c hc
    all_goals exact h.answer _

/-- Every command keeps the owners of slots sound. -/
theorem leads_owners : ∀ i, Leads State.KeepsOwners i :=
  forall_instr
    (quiet := fun _ hi s =>
      have ⟨t, ht, hq⟩ := leads_quiet hi s
      ⟨t, ht, fun h => h.quiet hq⟩)
    (pinReset := owners_pinReset) (keyEventTake := owners_keyEventTake) (walkStart := owners_walkStart)
    (walkEnd := owners_walkEnd) (crosspointInstall := owners_crosspointInstall) (removeKey := owners_removeKey)
    (removePortKeys := owners_removePortKeys) (removeCircuit := owners_removeCircuit)
    (removeKeysAndCues := owners_removeKeysAndCues) (portRowReset := owners_portRowReset)
    (walkerReset := owners_walkerReset) (circuitAbort := owners_circuitAbort) (softReset := owners_softReset)
    (slotEnable := owners_slotEnable) (slotRetire := owners_slotRetire)
    (installCrosspoint := owners_installCrosspoint) (removeCrosspoint := owners_removeCrosspoint)
    (setGain := owners_setGain)

theorem State.OwnersSound.setPending {s : State} (h : s.OwnersSound) (q : List Instr) : (s.setPending q).OwnersSound :=
  h.quiet (.of_eq rfl rfl rfl rfl rfl rfl)

theorem State.GainsKept.setPending {s : State} (h : s.GainsKept) (q : List Instr) : (s.setPending q).GainsKept :=
  (State.Moved.of_eq (s := s) (t := s.setPending q) (.of_eq rfl rfl) rfl fun _ => id).gainsKept h

/-- Settles O56: the loads, table RAM, the gains and the set by what every command does to them (`State.Moved`), the
owners of slots by an argument for each command that is not quiet. -/
theorem directoryAndSlotsStaySound : Obligations.DirectoryAndSlotsStaySound := by
  refine ⟨?_, ?_, ?_, ?_, ?_⟩
  · exact kept_of_moved (fun _ _ h => h) fun s t hm => hm.stored.load
  · exact kept_of_moved (fun _ _ h => h) fun s t hm ⟨hl, hw⟩ => ⟨hm.stored.load hl, (hm.stored.ram hl).wf hw⟩
  · refine kept_of_moved (fun s q h => ?_) fun s t hm h => ?_
    · exact (s.setPending q).gainsKept_iff.1 ((s.gainsKept_iff.2 h).setPending q)
    · exact t.gainsKept_iff.1 (hm.gainsKept (s.gainsKept_iff.2 h))
  · exact kept_of_moved (fun _ _ h => h) fun s t hm => hm.xps.sound
  · exact kept_of_leads (fun _ q h => h.setPending q) leads_owners

end Sys2Proof.Machine
end

section
/-!
PROOFS, the machine after pin reset (00_scope 2.6): O2 and O60.
-/

namespace Sys2Proof.Machine

/-! ### Table entries after pin reset -/

section
variable (straps : Fin 8) (ram : TableRam) (q : List Instr)

theorem State.initial_port (p : Port) : (State.initial straps ram q).ports[p] = StationPort.initial := by
  simp [State.initial]

theorem State.initial_circuit (c : CircuitIx) : (State.initial straps ram q).circuits[c] = Circuit.initial := by
  simp [State.initial]

theorem State.initial_slot (i : SlotIx) : (State.initial straps ram q).xps.slots[i] = .lockedOut := by
  simp [State.initial, CrosspointSet.initial]

theorem State.initial_entry (p : Port) (k : Key) :
    (State.initial straps ram q).walker.entry p k = KeyEntry.initial := by
  simp [State.initial, Walker.initial, Walker.entry]

theorem State.initial_calls (p : Port) : (State.initial straps ram q).walker.calls[p] = 0 := by
  simp [State.initial, Walker.initial]

theorem State.initial_portClips (p : Port) : (State.initial straps ram q).mixer.portClips[p] = 0 := by
  simp [State.initial, MixEngine.initial]

theorem State.initial_channelClips (c : Channel) : (State.initial straps ram q).mixer.channelClips[c] = 0 := by
  simp [State.initial, MixEngine.initial]

theorem State.initial_lane (n : Lane) : (State.initial straps ram q).trunk.laneMap[n] = .pass
    ∧ (State.initial straps ram q).trunk.presented[n] = 0
    ∧ (State.initial straps ram q).trunk.lastGood[n] = 0 := by
  simp [State.initial, TrunkPort.initial]

end

/-- Settles O2: pin reset answers `State.initial`, whose tables hold one value throughout. -/
theorem pinResetValues : Obligations.PinResetValues := by
  intro straps s
  refine ⟨State.initial straps s.directory.ram s.pending, rfl, rfl, rfl, rfl, rfl, rfl, rfl, rfl, rfl,
    State.initial_lane _ _ _, fun p => ?_, rfl, rfl, rfl, rfl, rfl, rfl, rfl, State.initial_entry _ _ _,
    State.initial_calls _ _ _, State.initial_slot _ _ _, rfl, State.initial_portClips _ _ _,
    State.initial_channelClips _ _ _, fun c => ?_, rfl, rfl, rfl, rfl, rfl, rfl, rfl, rfl, rfl, rfl, rfl, rfl, rfl, rfl⟩
  · rw [State.initial_port]
    simp [StationPort.initial]
  · rw [State.initial_circuit]
    simp [Circuit.initial]

/-! ### What the steps keep -/

theorem Circuit.initial_sound : Circuit.initial.sound := by
  simp [Circuit.sound, Circuit.initial]

theorem StationPort.initial_sound : StationPort.initial.sound := by
  simp [StationPort.sound, StationPort.initial, Config.badRunDown]

theorem TrunkPort.initial_sound (straps : Fin 8) : (TrunkPort.initial straps).sound := by
  simp [TrunkPort.sound, TrunkPort.initial]

/-- An empty table RAM reads places of the initial content, which is not valid. -/
theorem TableRam.nil_gainsSound : TableRam.gainsSound [] := fun _ hv =>
  absurd hv (by simp [TableRam.read, RecordPlace.initial, Record.initial])

theorem State.reset_gainsKept : State.reset.GainsKept where
  load := State.loadSound_of nofun
  wf := TableRam.wf_nil
  records := TableRam.nil_gainsSound
  hits := fun _ hx => absurd hx List.not_mem_nil
  abandoned := nofun
  slots := fun i _ hc => absurd (hc.symm.trans (State.initial_slot 0 [] [] i)) nofun

/-- Settles O60: no slot is LIVE, no walk, load or request is under way and every list is empty. -/
theorem resetIsSound : Obligations.ResetIsSound := by
  obtain ⟨hl, hw, hg⟩ := State.reset.gainsKept_iff.1 State.reset_gainsKept
  have noLive (i : SlotIx) (c : Connection) (hc : State.reset.xps.slots[i] = .live c) : False := by
    have := hc.symm.trans (State.initial_slot 0 [] [] i)
    cases this
  refine ⟨hl, hw, hg, ⟨fun i c hc => (noLive i c hc).elim, fun i _ a _ ha => (noLive i a ha).elim⟩,
    State.ownersSound_of_bare (fun o _ i c hc => (noLive i c hc).elim) rfl rfl, ?_, ?_, ?_, ?_,
    fun c => (State.initial_circuit 0 [] [] c) ▸ Circuit.initial_sound,
    fun p => (State.initial_port 0 [] [] p) ▸ StationPort.initial_sound, TrunkPort.initial_sound 0,
    fun p => ?_, fun c => ?_⟩
  · simp [State.queuesSound, State.reset, State.initial, Walker.initial, Management.initial, Management.repliesTaken]
  · exact ⟨fun h => absurd rfl h, nofun⟩
  · exact ⟨Nat.zero_le _, List.Pairwise.nil, fun _ h => absurd h List.not_mem_nil, Nat.le_refl _⟩
  · exact ⟨Nat.zero_le _, fun _ h => absurd h List.not_mem_nil, Nat.le_refl _⟩
  · exact (State.initial_portClips 0 [] [] p) ▸ Nat.zero_le _
  · exact (State.initial_channelClips 0 [] [] c) ▸ Nat.zero_le _

end Sys2Proof.Machine
end

section
/-!
PROOFS, how a command that may run is carried out (R160, R161), and the commands that read: O46.
-/

namespace Sys2Proof.Machine

/-! ### Commands that may run -/

theorem index?_of_eq {n x : Nat} {i : Fin n} (h : x = i.val) : index? n x = some i := by
  subst h
  simp [index?]

theorem index?_of_le {n x : Nat} (h : n ≤ x) : index? n x = none := by
  simp [index?, Nat.not_lt.2 h]

/-- A command that may run, and that none of these states of the lock refuses, is carried out. -/
theorem State.canRun.begin {s : State} {code : Nat} {locks : List LockState} {c : Command} {rest : List Command}
    (h : s.canRun code locks c rest) (hl : ∀ l ∈ locks, l.refuses (BitVec.ofNat 8 code) = false)
    (effect : List Byte → State → State) : s.begin code effect = effect c.params s := by
  obtain ⟨hc, hcode, hi, he, hr, hlock⟩ := h
  refine s.begin_of_allowed hc (s.mayBegin_iff.2 ⟨hi, he, hr⟩) hcode ?_ effect
  have : c.code = BitVec.ofNat 8 code := by
    rw [← hcode, BitVec.ofNat_toNat, BitVec.setWidth_eq]
  exact this ▸ hl _ hlock

/-- An answer of the command, from a state with the same command queue. -/
theorem State.canRun.answer {s : State} {code : Nat} {locks : List LockState} {c : Command} {rest : List Command}
    (h : s.canRun code locks c rest) {t : State} (ht : t.management.commands = s.management.commands) (a : Answer) :
    t.answer a = t.answered c rest a := t.answer_of_commands (ht.trans h.1) a

theorem State.canRun.read {s : State} {code : Nat} {locks : List LockState} {c : Command} {rest : List Command}
    (h : s.canRun code locks c rest) (hl : ∀ l ∈ locks, l.refuses (BitVec.ofNat 8 code) = false)
    (read : List Byte → State → Answer) : s.beginRead code read = s.answered c rest (read c.params s) :=
  (h.begin hl _).trans (h.answer rfl _)

/-- A flag as a byte. -/
theorem byte_bit (b : Bool) : byte (bit b) = if b = true then 1 else 0 := by
  cases b <;> rfl

/-! ### PORT STATUS (R141, R173) -/

section
variable {ps : List Byte} {s : State} {p : Port} (hp : (byteAt ps 0).toNat = p.val)
include hp

theorem portStatus_part0 (h : (byteAt ps 1).toNat = 0) : portStatus ps s = .ok (s.portPart0 p) := by
  simp only [portStatus, index?_of_eq hp, h]

theorem portStatus_part1 (h : (byteAt ps 1).toNat = 1) : portStatus ps s = .ok s.ports[p].part1 := by
  simp only [portStatus, index?_of_eq hp, h]

theorem portStatus_part2 (h : (byteAt ps 1).toNat = 2) : portStatus ps s = .ok (s.portPart2 p) := by
  simp only [portStatus, index?_of_eq hp, h]

theorem portStatus_part3 (h : (byteAt ps 1).toNat = 3) {n : Channel} (hn : (byteAt ps 2).toNat = n.val) :
    portStatus ps s = .ok (byte n.val :: bytes16 s.mixer.channelClips[n]) := by
  simp only [portStatus, index?_of_eq hp, index?_of_eq hn, h]

end

theorem portStatus_bad {ps : List Byte} {s : State} (h : 15 < (byteAt ps 0).toNat ∨ 3 < (byteAt ps 1).toNat
    ∨ (byteAt ps 1).toNat = 3 ∧ 11 < (byteAt ps 2).toNat) : portStatus ps s = .bare .badParam := by
  unfold portStatus
  split
  case h_4 p _ hpart =>
    rcases h with h | h | ⟨-, h⟩
    · rw [index?_of_le h] at *
      contradiction
    · omega
    · rw [index?_of_le h]
  case h_5 => rfl
  all_goals
    rename_i hp hpart
    rcases h with h | h | ⟨h, -⟩
    · rw [index?_of_le h] at hp
      cases hp
    · omega
    · omega

/-- The row of a port, key by key. -/
theorem State.keys_toList (s : State) (p : Port) : s.walker.keys[p].toList = (List.finRange 5).map (s.entry p) := by
  refine List.ext_getElem (by simp) fun i h1 h2 => by simp [Walker.entry]

/-! ### READ SLOT (R19) -/

theorem slotParam_of_eq {ps : List Byte} {i : SlotIx} (h : (byteAt ps 0).toNat = i.val) : slotParam ps = some i :=
  index?_of_eq h

theorem slotParam_of_lt {ps : List Byte} (h : 63 < (byteAt ps 0).toNat) : slotParam ps = none :=
  index?_of_le h

section
variable {ps : List Byte} {s : State} {i : SlotIx} (hi : (byteAt ps 0).toNat = i.val)
include hi

theorem readSlot_part0 (h : (byteAt ps 1).toNat = 0) : readSlot ps s = .ok s.xps.slots[i].part0 := by
  simp only [readSlot, slotParam_of_eq hi, h]

theorem readSlot_part1 (h : (byteAt ps 1).toNat = 1) : readSlot ps s = .ok s.xps.slots[i].part1 := by
  simp only [readSlot, slotParam_of_eq hi, h]

theorem readSlot_part2 (h : (byteAt ps 1).toNat = 2) : readSlot ps s = .ok (s.xps.part2 s.xps.slots[i]) := by
  simp only [readSlot, slotParam_of_eq hi, h]

end

theorem readSlot_bad {ps : List Byte} {s : State} (h : 63 < (byteAt ps 0).toNat ∨ 2 < (byteAt ps 1).toNat) :
    readSlot ps s = .bare .badParam := by
  unfold readSlot
  split
  case h_4 => rfl
  all_goals
    rename_i hp hpart
    rcases h with h | h
    · rw [slotParam_of_lt h] at hp
      cases hp
    · omega

theorem Slot.connection?_of_dead {v : Slot} (hv : ∀ x, v ≠ .live x) : v.connection? = none := by
  cases v with
  | live x => exact absurd rfl (hv x)
  | lockedOut | free | retired => rfl

theorem Slot.parts_of_dead {v : Slot} (hv : ∀ x, v ≠ .live x) :
    v.part0 = [byte v.code, 0xFF, 0xFF, 0xFF, 0, 0, 0, 0]
      ∧ v.part1 = [0xFF, 0, 0xFF, 0, 0xFF, 0, 0xFF, 0] := by
  rw [Slot.part0, Slot.part1, Slot.connection?_of_dead hv]
  exact ⟨rfl, rfl⟩

/-! ### READ CIRCUIT (R105) -/

section
variable {ps : List Byte} {s : State} {n : CircuitIx} (hn : (byteAt ps 0).toNat = n.val)
include hn

theorem readCircuit_part0 (h : (byteAt ps 1).toNat = 0) : readCircuit ps s = .ok s.circuits[n].setupBytes := by
  simp only [readCircuit, circuitParam, index?_of_eq hn, h, if_true]

theorem readCircuit_part1 (h : (byteAt ps 1).toNat = 1) : readCircuit ps s = .ok s.circuits[n].runBytes := by
  simp only [readCircuit, circuitParam, index?_of_eq hn, h, if_true, one_ne_zero, if_false]

theorem readCircuit_history (h : 2 ≤ (byteAt ps 1).toNat) (h' : (byteAt ps 1).toNat ≤ 9) :
    readCircuit ps s = .ok (outcomeBytes s.circuits[n].history[(byteAt ps 1).toNat - 2]?) := by
  simp only [readCircuit, circuitParam, index?_of_eq hn]
  rw [if_neg (by omega), if_neg (by omega), if_pos h']

theorem readCircuit_deadlines (h : (byteAt ps 1).toNat = 10) : readCircuit ps s =
    .ok (framesLeft s.clock s.circuits[n].standbyDeadline ++ framesLeft s.clock s.circuits[n].holdDeadline) := by
  simp only [readCircuit, circuitParam, index?_of_eq hn]
  rw [if_neg (by omega), if_neg (by omega), if_neg (by omega), if_pos h]

end

theorem readCircuit_bad {ps : List Byte} {s : State} (h : 23 < (byteAt ps 0).toNat ∨ 10 < (byteAt ps 1).toNat) :
    readCircuit ps s = .bare .badParam := by
  unfold readCircuit circuitParam
  dsimp only
  split
  · rfl
  · rename_i n hn
    rcases h with h | h
    · rw [index?_of_le h] at hn
      cases hn
    · rw [if_neg (by omega), if_neg (by omega), if_neg (by omega), if_neg (by omega)]

theorem AnswerRule.byte_code (r : AnswerRule) : byte r.code = match r with | .all => 0 | .any => 1 := by
  cases r <;> rfl

/-- The bit of the mark of the member at place `j`. -/
def markAt (f : Member → Bool) (ms : List Member) (j : Nat) : Nat :=
  match ms[j]? with
  | some m => if f m then 2 ^ j else 0
  | none => 0

theorem markAt_cons (f : Member → Bool) (m : Member) (ms : List Member) (j : Nat) :
    markAt f (m :: ms) (j + 1) = 2 * markAt f ms j := by
  simp only [markAt, List.getElem?_cons_succ]
  split
  · split <;> simp [Nat.pow_succ, Nat.mul_comm]
  · rfl

/-- The marks of a member list add up place by place. -/
theorem markBits_eq_sum (f : Member → Bool) {ms : List Member} {n : Nat} (h : ms.length ≤ n) :
    markBits f ms = ((List.range n).map (markAt f ms)).sum := by
  induction ms generalizing n with
  | nil =>
    refine (List.sum_eq_zero fun x hx => ?_).symm
    obtain ⟨j, -, rfl⟩ := List.mem_map.1 hx
    rfl
  | cons m ms ih =>
    obtain ⟨k, rfl⟩ : ∃ k, n = k + 1 := ⟨n - 1, by simp only [List.length_cons] at h; omega⟩
    have tail : (List.range k).map (markAt f (m :: ms) ∘ Nat.succ) = (List.range k).map fun j => 2 * markAt f ms j :=
      List.map_congr_left fun j _ => markAt_cons f m ms j
    have head : markAt f (m :: ms) 0 = bit (f m) := by simp [markAt, bit]
    rw [List.range_succ_eq_map, List.map_cons, List.sum_cons, List.map_map, tail, List.sum_map_mul_left, head,
      ← ih (Nat.le_of_succ_le_succ h), markBits]

/-! ### The commands that read -/

theorem identify_answer {s : State} {c : Command} {rest : List Command} (h : s.canRun 0x01 anyLock c rest) :
    exec .identify s = .next (s.answered c rest (identify c.params s)) :=
  congrArg Host.Outcome.next (h.read (by decide) _)

theorem portStatus_answer {s : State} {c : Command} {rest : List Command} (h : s.canRun 0x11 anyLock c rest) :
    exec .portStatus s = .next (s.answered c rest (portStatus c.params s)) :=
  congrArg Host.Outcome.next (h.read (by decide) _)

theorem readSlot_answer {s : State} {c : Command} {rest : List Command} (h : s.canRun 0x25 anyLock c rest) :
    exec .readSlot s = .next (s.answered c rest (readSlot c.params s)) :=
  congrArg Host.Outcome.next (h.read (by decide) _)

theorem readCircuit_answer {s : State} {c : Command} {rest : List Command} (h : s.canRun 0x41 anyLock c rest) :
    exec .readCircuit s = .next (s.answered c rest (readCircuit c.params s)) :=
  congrArg Host.Outcome.next (h.read (by decide) _)

/-- Settles O46: each command answers what its reading function gives, part by part. -/
theorem readingCommands : Obligations.ReadingCommands := by
  refine ⟨fun p k c pin => ⟨rfl, rfl, by cases pin <;> rfl⟩, fun s c rest h => ?_, fun s c rest h => ?_,
    fun s c rest h => ?_, fun s c rest h => ?_⟩
  · exact identify_answer h
  · rw [portStatus_answer h]
    refine ⟨fun p hp => ⟨fun hpart => ?_, fun hpart => ?_, fun hpart => ?_, fun n hpart hn => ?_⟩, fun hbad => ?_⟩
    · rw [portStatus_part0 hp hpart, State.portPart0, byte_bit]
      rfl
    · rw [portStatus_part1 hp hpart]
      rfl
    · rw [portStatus_part2 hp hpart, State.portPart2, State.keys_toList, List.map_map]
      rfl
    · rw [portStatus_part3 hp hpart hn]
      rfl
    · rw [portStatus_bad hbad]
      rfl
  · rw [readSlot_answer h]
    refine ⟨fun i hi => ⟨fun x hx => ⟨fun hpart => ?_, fun hpart => ?_, fun hpart => ?_⟩,
      fun hdead => ⟨fun hpart => ?_, fun hpart => ?_, fun hpart => ?_⟩⟩, fun hbad => ?_⟩
    · rw [readSlot_part0 hi hpart, hx, Slot.part0, Slot.connection?]
      dsimp only
      rw [byte_bit]
      rfl
    · rw [readSlot_part2 hi hpart, hx]
      rfl
    · rw [readSlot_part1 hi hpart, hx]
      rfl
    · rw [readSlot_part0 hi hpart, (Slot.parts_of_dead hdead).1]
      rfl
    · rw [readSlot_part1 hi hpart, (Slot.parts_of_dead hdead).2]
      rfl
    · rw [readSlot_part2 hi hpart, CrosspointSet.part2, Slot.connection?_of_dead hdead]
      rfl
    · rw [readSlot_bad hbad]
      rfl
  · rw [readCircuit_answer h]
    refine ⟨fun n hn => ⟨fun hpart => ?_, fun hpart hlen => ?_, fun hlo hhi => ?_, fun hpart => ?_⟩, fun hbad => ?_⟩
    · rw [readCircuit_part0 hn hpart, Circuit.setupBytes, byte_bit, AnswerRule.byte_code]
      rfl
    · rw [readCircuit_part1 hn hpart, Circuit.runBytes, markBits_eq_sum _ hlen, markBits_eq_sum _ hlen]
      rfl
    · rw [readCircuit_history hn hlo hhi]
      generalize s.circuits[n].history[(byteAt c.params 1).toNat - 2]? = o
      cases o <;> rfl
    · rw [readCircuit_deadlines hn hpart]
      cases s.circuits[n].standbyDeadline <;> cases s.circuits[n].holdDeadline <;> rfl
    · rw [readCircuit_bad hbad]
      rfl

end Sys2Proof.Machine
end

section
/-!
PROOFS, the commands that change slots (R10, R11, R14 to R18): O47 and O48.
-/

namespace Sys2Proof.Machine

theorem State.canRun.answer_setXps {s : State} {code : Nat} {locks : List LockState} {c : Command}
    {rest : List Command} (h : s.canRun code locks c rest) (x : CrosspointSet) (a : Answer) :
    (s.setXps x).answer a = (s.setXps x).answered c rest a := h.answer (t := s.setXps x) rfl a

/-! ### SLOT ENABLE (R14) -/

/-- The slots of the range `first … first + count - 1` that are LOCKED_OUT are FREE, the others as before. -/
def CrosspointSet.enable (x : CrosspointSet) (first count : Nat) : CrosspointSet :=
  { x with slots := each x.slots fun i v =>
      if (first ≤ i.val && i.val < first + count) && v == .lockedOut then .free else v }

theorem CrosspointSet.enable_get (x : CrosspointSet) (first count : Nat) (i : SlotIx) :
    (x.enable first count).slots[i] =
      if (first ≤ i.val ∧ i.val < first + count) ∧ x.slots[i] = .lockedOut then .free else x.slots[i] := by
  simp [CrosspointSet.enable]

theorem slotEnable_bad {ps : List Byte} {s : State} (h : 63 < (byteAt ps 0).toNat ∨ (byteAt ps 1).toNat = 0
    ∨ 64 < (byteAt ps 1).toNat ∨ 64 < (byteAt ps 0).toNat + (byteAt ps 1).toNat) :
    slotEnable ps s = s.answer (.bare .badParam) := by
  unfold slotEnable
  exact if_pos h

theorem slotEnable_good {ps : List Byte} {s : State} (h : ¬ (63 < (byteAt ps 0).toNat ∨ (byteAt ps 1).toNat = 0
    ∨ 64 < (byteAt ps 1).toNat ∨ 64 < (byteAt ps 0).toNat + (byteAt ps 1).toNat)) :
    slotEnable ps s = (s.setXps (s.xps.enable (byteAt ps 0).toNat (byteAt ps 1).toNat)).answer (.ok [byte
      ((List.finRange 64).countP fun i => ((byteAt ps 0).toNat ≤ i.val
        && i.val < (byteAt ps 0).toNat + (byteAt ps 1).toNat) && s.xps.slots[i] == .lockedOut)]) := by
  unfold slotEnable
  exact if_neg h

/-- The slots that moved are those that were LOCKED_OUT and are FREE. -/
theorem CrosspointSet.enable_moved (x : CrosspointSet) (first count : Nat) :
    ((List.finRange 64).countP fun i => (first ≤ i.val && i.val < first + count) && x.slots[i] == .lockedOut) =
      ((List.finRange 64).filter fun i =>
        x.slots[i] == .lockedOut && (x.enable first count).slots[i] == .free).length := by
  rw [List.countP_eq_length_filter]
  refine congrArg List.length (List.filter_congr fun i _ => ?_)
  rw [Bool.eq_iff_iff, CrosspointSet.enable_get]
  by_cases hr : first ≤ i.val ∧ i.val < first + count <;> by_cases hv : x.slots[i] = .lockedOut <;> simp_all

/-! ### SLOT RETIRE (R15) -/

theorem slotRetire_of_eq {ps : List Byte} {s : State} {i : SlotIx} (hi : (byteAt ps 0).toNat = i.val) :
    slotRetire ps s = (s.retire i).answer (.ok [byte s.xps.slots[i].code, byte s.xps.slots[i].ownerCount]) := by
  simp only [slotRetire, slotParam_of_eq hi]

theorem slotRetire_bad {ps : List Byte} {s : State} (h : 63 < (byteAt ps 0).toNat) :
    slotRetire ps s = s.answer (.bare .badParam) := by
  simp only [slotRetire, slotParam_of_lt h]

section
variable {s : State} {i : SlotIx}

theorem State.retire_of_lockedOut (h : s.xps.slots[i] = .lockedOut) :
    s.retire i = s.setXps (s.xps.setSlot i .retired) := by
  simp only [State.retire, h]

theorem State.retire_of_free (h : s.xps.slots[i] = .free) (hn : (s.xps.setSlot i .retired).freeCount ≠ 0) :
    s.retire i = s.setXps (s.xps.setSlot i .retired) := by
  simp only [State.retire, h, if_neg hn]

theorem State.retire_of_lastFree (h : s.xps.slots[i] = .free) (h0 : (s.xps.setSlot i .retired).freeCount = 0) :
    s.retire i = (s.setXps (s.xps.setSlot i .retired)).offer
      (.slotFull i (s.xps.setSlot i .retired).liveCount (s.xps.setSlot i .retired).retiredCount none) := by
  simp only [State.retire, h, if_pos h0]

theorem State.retire_of_live {y : Connection} (h : s.xps.slots[i] = .live y) : s.retire i =
    (s.setRequests (s.requests ++ y.busyRequests)).setXps (s.xps.setSlot i .retired) := by
  simp only [State.retire, h, State.foldl_hand]

theorem State.retire_of_retired (h : s.xps.slots[i] = .retired) : s.retire i = s := by
  simp only [State.retire, h]

end

/-- The counts of the slots by state, as the statements write them. -/
theorem CrosspointSet.counts (x : CrosspointSet) : x.freeCount = x.slots.toList.countP (fun v => v == .free)
    ∧ x.liveCount = x.slots.toList.countP (fun v => v.connection?.isSome)
    ∧ x.retiredCount = x.slots.toList.countP (fun v => v == .retired) := by
  refine ⟨List.countP_congr fun v _ => ?_, List.countP_congr fun v _ => ?_, List.countP_congr fun v _ => ?_⟩
  all_goals cases v <;> simp [Slot.code, Slot.connection?]

theorem slotEnable_step {s : State} {c : Command} {rest : List Command} (h : s.canRun 0x20 [.unlocked] c rest) :
    exec .slotEnable s = .next (slotEnable c.params s) :=
  congrArg Host.Outcome.next (h.begin (by decide) _)

theorem slotRetire_step {s : State} {c : Command} {rest : List Command} (h : s.canRun 0x21 [.unlocked] c rest) :
    exec .slotRetire s = .next (slotRetire c.params s) :=
  congrArg Host.Outcome.next (h.begin (by decide) _)

/-- Settles O47, by the state that the slot was in. -/
theorem slotEnableAndRetire : Obligations.SlotEnableAndRetire := by
  refine ⟨fun v i j x => ?_, fun s c rest h => ?_, fun s c rest h => ?_⟩
  · simp only [Fin.getElem_fin, put_get, Fin.ext_iff, eq_comm]
  · rw [slotEnable_step h]
    refine ⟨fun hbad => ?_, fun h1 h2 h3 h4 => ?_⟩
    · rw [slotEnable_bad hbad, h.answer rfl]
      rfl
    · rw [slotEnable_good (by omega), CrosspointSet.enable_moved]
      refine ⟨_, _, congrArg Host.Outcome.next (h.answer_setXps _ _), by simp only [CrosspointSet.enable],
        by simp only [CrosspointSet.enable], rfl, fun i => ⟨?_, ?_⟩⟩
      all_goals rw [CrosspointSet.enable_get]
      · exact fun ha hb hv => if_pos ⟨⟨ha, hb⟩, hv⟩
      · intro hout
        refine if_neg fun ⟨⟨ha, hb⟩, hv⟩ => ?_
        rcases hout with hout | hout | hout
        · omega
        · omega
        · exact hout hv
  · rw [slotRetire_step h]
    refine ⟨fun hbad => ?_, fun i hi => ?_⟩
    · rw [slotRetire_bad hbad, h.answer rfl]
      rfl
    · rw [slotRetire_of_eq hi]
      obtain ⟨hfree, hlive, hretired⟩ := (s.xps.setSlot i .retired).counts
      refine ⟨fun hv => ?_, fun hv hn => ?_, fun hv h0 => ?_, fun y hv => ?_, fun hv => ?_⟩
      · rw [State.retire_of_lockedOut hv, hv, h.answer_setXps]
        rfl
      · rw [State.retire_of_free hv (hfree ▸ hn), hv, h.answer_setXps]
        rfl
      · have left (body : NoticeBody) := h.answer (t := (s.setXps (s.xps.setSlot i .retired)).offer body)
          (State.offer_commands _ body)
        rw [State.retire_of_lastFree hv (hfree.trans h0), hv, left, hlive, hretired]
        rfl
      · rw [State.retire_of_live hv, hv, h.answer (t := (s.setRequests (s.requests ++ y.busyRequests)).setXps
          (s.xps.setSlot i .retired)) rfl]
        rfl
      · rw [State.retire_of_retired hv, hv, h.answer rfl]
        rfl

/-! ### INSTALL CROSSPOINT, REMOVE CROSSPOINT and SET GAIN (R16 to R18) -/

theorem min_gainTop (n : Nat) : min n Config.gainTop = if n ≤ 512 then n else 512 := by
  rw [Config.gainTop, Nat.min_def]

theorem installCrosspoint_of_decoded {ps : List Byte} {s : State} {src dst : Endpoint} {cls : SlotClass}
    (hs : Endpoint.decode (byteAt ps 0) = some src) (hd : Endpoint.decode (byteAt ps 1) = some dst)
    (hc : SlotClass.decode (byteAt ps 2).toNat = some cls) : installCrosspoint ps s =
      (s.install ⟨src, dst, cls, min (wordAt ps 3).toNat Config.gainTop, .controller (byteAt ps 5 != 0)⟩).1.answer
        ((s.install ⟨src, dst, cls, min (wordAt ps 3).toNat Config.gainTop,
          .controller (byteAt ps 5 != 0)⟩).2.answer (decide (Config.gainTop < (wordAt ps 3).toNat))) := by
  simp only [installCrosspoint, hs, hd, hc]

theorem installCrosspoint_bad {ps : List Byte} {s : State} (h : Endpoint.decode (byteAt ps 0) = none
    ∨ Endpoint.decode (byteAt ps 1) = none ∨ SlotClass.decode (byteAt ps 2).toNat = none) :
    installCrosspoint ps s = s.answer (.bare .badParam) := by
  unfold installCrosspoint
  dsimp only
  split
  · rename_i hs hd hc
    rcases h with h | h | h
    · rw [h] at hs
      cases hs
    · rw [h] at hd
      cases hd
    · rw [h] at hc
      cases hc
  · rfl

/-- An install leaves the command queue. -/
theorem State.install_commands (r : Install) (s : State) :
    (s.install r).1.management.commands = s.management.commands := by
  rcases s.install_cases r with ⟨-, -, e⟩ | ⟨-, ⟨i, c, -, e⟩ | ⟨-, ⟨i, -, e⟩ | ⟨-, ⟨i, c, -, -, e⟩ | ⟨-, e⟩⟩⟩⟩
  all_goals rw [e]
  · rcases s.installJoin_cases r i c with ⟨-, e⟩ | ⟨-, -, e⟩ | ⟨-, -, e⟩ <;> rw [e]
    rfl
  · obtain ⟨h0, h1⟩ := s.installFree_eq r i
    by_cases hf : (s.installFree r i).1.xps.freeCount = 0
    · rw [h0 hf, State.offer_commands]
      rfl
    · rw [h1 hf]
      rfl
  · rw [s.installEvict_eq r i c, State.offer_commands]
    rfl

/-- A connection from channel to channel is refused (R3). -/
theorem State.install_channels {s : State} {r : Install} (h : (r.source.isChannel && r.dest.isChannel) = true) :
    s.install r = (s, .illegal) := by
  rw [State.install, if_pos h]

/-- A slot all of whose owners leave is FREE, and one that keeps an owner stays LIVE (R11). -/
theorem Slot.remove_all {gone : Owner → Bool} {x : Connection} (hl : x.owners.filter (fun o => !gone o) = [])
    (ho : ∃ o ∈ x.owners, gone o = true) : (Slot.live x).remove gone = .free := by
  obtain ⟨o, ho, hg⟩ := ho
  rcases Slot.remove_live gone x with ⟨hn, -⟩ | ⟨-, -, e⟩ | ⟨-, ⟨a, ha, hk⟩, -⟩
  · simp [hn o ho] at hg
  · exact e
  · exact absurd (hl ▸ List.mem_filter.2 ⟨ha, by simp [hk]⟩) List.not_mem_nil

theorem Slot.remove_some {gone : Owner → Bool} {x : Connection} (hl : x.owners.filter (fun o => !gone o) ≠ [])
    (ho : ∃ o ∈ x.owners, gone o = true) : (Slot.live x).remove gone = .live { x with
      owners := x.owners.filter fun o => !gone o, pinned := pinnedBy (x.owners.filter fun o => !gone o) } := by
  obtain ⟨o, ho, hg⟩ := ho
  rcases Slot.remove_live gone x with ⟨hn, -⟩ | ⟨-, hall, -⟩ | ⟨-, -, e⟩
  · simp [hn o ho] at hg
  · exact absurd (List.filter_eq_nil_iff.2 fun a ha => by simp [hall a ha]) hl
  · exact e

theorem removeCrosspoint_bad {ps : List Byte} {s : State} (h : 63 < (byteAt ps 0).toNat) :
    removeCrosspoint ps s = s.answer (.bare .badParam) := by
  simp only [removeCrosspoint, slotParam_of_lt h]

theorem removeCrosspoint_notOwner {ps : List Byte} {s : State} {i : SlotIx} (hi : (byteAt ps 0).toNat = i.val)
    (h : ∀ x, s.xps.slots[i] = .live x → ∀ o ∈ x.owners, o.isController = false) :
    removeCrosspoint ps s = s.answer (.bare .notOwner) := by
  unfold removeCrosspoint
  rw [slotParam_of_eq hi]
  dsimp only
  split
  · rename_i x hx
    rw [if_neg]
    simpa using h x hx
  all_goals rfl

theorem removeCrosspoint_owner {ps : List Byte} {s : State} {i : SlotIx} (hi : (byteAt ps 0).toNat = i.val)
    {x : Connection} (hx : s.xps.slots[i] = .live x) (ho : ∃ o ∈ x.owners, o.isController = true) :
    removeCrosspoint ps s = (s.setXps (s.xps.setSlot i ((Slot.live x).remove Owner.isController))).answer
      (.ok [byte ((Slot.live x).remove Owner.isController).code]) := by
  simp only [removeCrosspoint, slotParam_of_eq hi, hx]
  rw [if_pos (by simpa using ho)]

theorem setGain_bad {ps : List Byte} {s : State} (h : 63 < (byteAt ps 0).toNat) :
    setGain ps s = s.answer (.bare .badParam) := by
  simp only [setGain, slotParam_of_lt h]

theorem setGain_dead {ps : List Byte} {s : State} {i : SlotIx} (hi : (byteAt ps 0).toNat = i.val)
    (h : ∀ x, s.xps.slots[i] ≠ .live x) : setGain ps s = s.answer (.bare .badParam) := by
  unfold setGain
  rw [slotParam_of_eq hi]
  dsimp only
  split
  · exact absurd ‹_› (h _)
  all_goals rfl

theorem setGain_live {ps : List Byte} {s : State} {i : SlotIx} (hi : (byteAt ps 0).toNat = i.val) {x : Connection}
    (hx : s.xps.slots[i] = .live x) : setGain ps s =
      (s.setXps (s.xps.setSlot i (.live { x with gain := min (wordAt ps 1).toNat Config.gainTop }))).answer
        ⟨.done, decide (Config.gainTop < (wordAt ps 1).toNat), []⟩ := by
  simp only [setGain, slotParam_of_eq hi, hx]

theorem installCrosspoint_step {s : State} {c : Command} {rest : List Command}
    (h : s.canRun 0x22 [.unlocked, .locked] c rest) :
    exec .installCrosspoint s = .next (installCrosspoint c.params s) :=
  congrArg Host.Outcome.next (h.begin (by decide) _)

theorem removeCrosspoint_step {s : State} {c : Command} {rest : List Command}
    (h : s.canRun 0x23 [.unlocked, .locked] c rest) :
    exec .removeCrosspoint s = .next (removeCrosspoint c.params s) :=
  congrArg Host.Outcome.next (h.begin (by decide) _)

theorem setGain_step {s : State} {c : Command} {rest : List Command} (h : s.canRun 0x24 anyLock c rest) :
    exec .setGain s = .next (setGain c.params s) :=
  congrArg Host.Outcome.next (h.begin (by decide) _)

/-- Settles O48, by what the parameters name. -/
theorem controllerConnections : Obligations.ControllerConnections := by
  refine ⟨fun s c rest h => ?_, fun s c rest h => ?_, fun s c rest h => ?_⟩
  · rw [installCrosspoint_step h]
    refine ⟨fun src dst cls hs hd hc => ?_, fun m n hs hd => ?_, fun hbad => ?_⟩
    · rw [installCrosspoint_of_decoded hs hd hc, h.answer (State.install_commands _ _), min_gainTop]
      dsimp only
      congr 2
      generalize (s.install _).2 = out
      cases out with
      | new i evicted => cases evicted <;> rfl
      | merged | alreadyOwner | fullOwners | noSlot | illegal => rfl
    · cases hc : SlotClass.decode (byteAt c.params 2).toNat with
      | none =>
        rw [installCrosspoint_bad (.inr (.inr hc)), h.answer rfl]
        rfl
      | some cls =>
        rw [installCrosspoint_of_decoded hs hd hc, State.install_channels rfl, h.answer rfl]
        rfl
    · rw [installCrosspoint_bad hbad, h.answer rfl]
      rfl
  · rw [removeCrosspoint_step h]
    refine ⟨fun hbad => ?_, fun i hi => ⟨fun hn => ?_, fun x hx ho => ⟨fun hl => ?_, fun hl => ?_⟩⟩⟩
    · rw [removeCrosspoint_bad hbad, h.answer rfl]
      rfl
    · rw [removeCrosspoint_notOwner hi hn, h.answer rfl]
      rfl
    all_goals
      rw [removeCrosspoint_owner hi hx ho, h.answer_setXps]
    · rw [Slot.remove_all hl ho]
      rfl
    · rw [Slot.remove_some hl ho]
      rfl
  · rw [setGain_step h]
    refine ⟨fun hbad => ?_, fun i hi => ⟨fun hn => ?_, fun x hx => ?_⟩⟩
    · rw [setGain_bad hbad, h.answer rfl]
      rfl
    · rw [setGain_dead hi hn, h.answer rfl]
      rfl
    · rw [setGain_live hi hx, h.answer_setXps, min_gainTop]
      rfl

end Sys2Proof.Machine
end

section
/-!
PROOFS, the removal requests that the crosspoint set takes (R12, R20, R21, R66, R96): O32.
-/

namespace Sys2Proof.Machine

/-! ### A removal within an event after the same removal (R12, R66) -/

theorem Slot.remove_remove (v : Slot) (gone : Owner → Bool) : (v.remove gone).remove gone = v.remove gone := by
  cases v with
  | live c =>
    rcases Slot.remove_live gone c with ⟨-, e⟩ | ⟨-, -, e⟩ | ⟨-, -, e⟩ <;> rw [e]
    · exact e
    · rfl
    · rcases Slot.remove_live gone _ with ⟨-, e⟩ | ⟨⟨o, ho, hg⟩, -⟩ | ⟨⟨o, ho, hg⟩, -⟩
      · exact e
      all_goals simpa [hg] using (List.mem_filter.1 ho).2
  | lockedOut | free | retired => rfl

theorem CrosspointSet.remove_remove (x : CrosspointSet) (gone : Owner → Bool) :
    (x.remove gone).remove gone = x.remove gone := by
  have slots : ((x.remove gone).remove gone).slots = (x.remove gone).slots :=
    table_ext fun i => by rw [CrosspointSet.remove_get, CrosspointSet.remove_get, Slot.remove_remove]
  have other : ((x.remove gone).remove gone).pointer = (x.remove gone).pointer
      ∧ ((x.remove gone).remove gone).abandoned = (x.remove gone).abandoned := by
    simp only [CrosspointSet.remove, and_self]
  generalize (x.remove gone).remove gone = y at slots other
  generalize x.remove gone = z at slots other
  cases y
  cases z
  simp_all

/-! #### What the rest of the state does not see of the slots -/

section
variable (s : State) (x : CrosspointSet)

theorem State.setXps_entry (p : Port) (k : Key) : (s.setXps x).entry p k = s.entry p k := rfl

theorem State.setXps_setEntry (p : Port) (k : Key) (e : KeyEntry) :
    (s.setXps x).setEntry p k e = (s.setEntry p k e).setXps x := rfl

theorem State.setXps_isUp (p : Port) : (s.setXps x).isUp p = s.isUp p := rfl

theorem State.setXps_setWalker (w : Walker) : (s.setXps x).setWalker w = (s.setWalker w).setXps x := rfl

theorem State.setXps_mayTake : (s.setXps x).mayTake = s.mayTake := rfl

end

/-- The state in which a key has left every slot ahead of the rest of its event. -/
def State.ahead (s : State) (p : Port) (k : Key) : State := s.setXps (s.xps.remove fun o => o == .key p k)

section
variable (s : State) (p : Port) (k : Key)

theorem State.ahead_entry (q : Port) (j : Key) : (s.ahead p k).entry q j = s.entry q j := s.setXps_entry _ q j

theorem State.ahead_isUp (q : Port) : (s.ahead p k).isUp q = s.isUp q := s.setXps_isUp _ q

theorem State.ahead_setEntry (q : Port) (j : Key) (e : KeyEntry) :
    (s.ahead p k).setEntry q j e = (s.setEntry q j e).ahead p k := s.setXps_setEntry _ q j e

theorem State.ahead_ahead : (s.ahead p k).ahead p k = s.ahead p k := by
  unfold State.ahead
  rw [State.setXps_xps, State.setXps_setXps, CrosspointSet.remove_remove]

theorem State.removeKey_eq_ahead (swallow : Bool) : s.removeKey p k swallow = ((s.ahead p k).setWalker { s.walker with
    calls := lowerCalls s.walker.calls (s.entry p k).calls }).setEntry p k { s.entry p k with
      state := .off, lamp := .off, calls := [], swallow := (s.entry p k).swallow || swallow } := rfl

theorem State.ahead_removeKey (swallow : Bool) : (s.ahead p k).removeKey p k swallow = s.removeKey p k swallow := by
  have walker : (s.ahead p k).walker = s.walker := State.setXps_walker ..
  rw [State.removeKey_eq_ahead, State.removeKey_eq_ahead, State.ahead_ahead, State.ahead_entry, walker]

end

/-! ### What the levels of a STATE remove (R67) -/

/-- The level calls for a walk or lets its HELD key go: the levels before it do neither. -/
def State.decides (s : State) (l : KeyLevel) : Bool :=
  if l.down then (s.entry l.port l.key).state == .off && !(s.entry l.port l.key).swallow
  else (s.entry l.port l.key).state == .held && (s.entry l.port l.key).letsGo l.stamp

theorem State.levelsRemove_eq_find (s : State) (ls : List KeyLevel) : s.levelsRemove ls =
    (ls.find? s.decides).bind fun l => if l.down then none else some (l.port, l.key) := by
  induction ls with
  | nil => rfl
  | cons l rest ih =>
    unfold State.levelsRemove
    dsimp only
    rw [ih, List.find?_cons]
    cases hd : l.down
    · by_cases hg : (s.entry l.port l.key).state = .held ∧ (s.entry l.port l.key).letsGo l.stamp = true
      · simp [-State.entry_eq, State.decides, hd, hg.1, hg.2]
      · have : s.decides l = false := by
          simpa [-State.entry_eq, State.decides, hd] using hg
        simp [-State.entry_eq, hg, this]
    · by_cases hw : (s.entry l.port l.key).state = .off ∧ (s.entry l.port l.key).swallow = false
      · simp [-State.entry_eq, State.decides, hd, hw.1, hw.2]
      · have : s.decides l = false := by
          simpa [-State.entry_eq, State.decides, hd] using hw
        simp [-State.entry_eq, hw, this]

/-- The entry of a key that a STATE finds up and that is not let go. -/
def KeyEntry.released (e : KeyEntry) : KeyEntry :=
  match e.state with
  | .held => { e with state := .latched }
  | .missed | .refused => e.toOff
  | .off | .latched => { e with swallow := false }

section
variable {s : State} {l : KeyLevel}

theorem State.applyLevel_down (hd : l.down = true) (h : s.decides l = false) : s.applyLevel l = (s, .done) := by
  simp only [State.decides, hd, if_true, Bool.and_eq_false_iff, Bool.not_eq_false', beq_eq_false_iff_ne] at h
  unfold State.applyLevel
  dsimp only
  rw [if_pos hd]
  split
  · rename_i ho
    rw [if_pos (h.resolve_left fun hn => hn ho)]
  all_goals rfl

theorem State.applyLevel_kept (hd : l.down = false) (h : s.decides l = false) : s.applyLevel l =
    (s.setEntry l.port l.key (s.entry l.port l.key).released, .done) := by
  simp only [State.decides, hd, Bool.false_eq_true, if_false, Bool.and_eq_false_iff, beq_eq_false_iff_ne] at h
  have up : ¬ l.down = true := by simp [hd]
  cases hs : (s.entry l.port l.key).state with
  | held =>
    have kept : ¬ (s.entry l.port l.key).letsGo l.stamp = true := by
      simpa using h.resolve_left fun hn => hn hs
    simp only [State.applyLevel, State.releaseHeld, KeyEntry.released, if_neg up, hs, if_neg kept]
  | off | missed | refused | latched => simp only [State.applyLevel, KeyEntry.released, if_neg up, hs]

theorem State.applyLevel_letsGo (hd : l.down = false) (h : s.decides l = true) : s.applyLevel l =
    (s.removeKey l.port l.key false, .done) := by
  simp only [State.decides, hd, Bool.false_eq_true, if_false, Bool.and_eq_true, beq_iff_eq] at h
  unfold State.applyLevel State.releaseHeld
  dsimp only
  rw [if_neg (by simp [hd]), h.1]
  exact if_pos h.2

end

theorem State.decides_congr {s t : State} {l : KeyLevel} (h : t.entry l.port l.key = s.entry l.port l.key) :
    t.decides l = s.decides l := by
  unfold State.decides
  rw [h]

/-- The levels of distinct keys end the same, whether or not the key that they remove has left the slots before. -/
theorem State.applyLevels_ahead {p : Port} {k : Key} (ls : List KeyLevel) {s : State}
    (hls : (ls.map fun l => (l.port, l.key)).Nodup) (h : s.levelsRemove ls = some (p, k)) :
    (s.ahead p k).applyLevels ls = s.applyLevels ls := by
  induction ls generalizing s with
  | nil => cases h
  | cons l rest ih =>
    obtain ⟨hl, hrest⟩ := List.nodup_cons.1 hls
    have both {t u : State} {r : State} (ht : t.applyLevel l = (r, .done)) (hu : u.applyLevel l = (r, .done)) :
        t.applyLevels (l :: rest) = u.applyLevels (l :: rest) := by
      simp only [State.applyLevels, ht, hu]
    have on {t r : State} (ht : t.applyLevel l = (r, .done)) : t.applyLevels (l :: rest) = r.applyLevels rest := by
      simp only [State.applyLevels, ht]
    have same : (s.ahead p k).decides l = s.decides l := State.decides_congr (s.ahead_entry p k _ _)
    rw [State.levelsRemove_eq_find, List.find?_cons] at h
    cases hd : l.down <;> cases hc : s.decides l <;> rw [hc] at h
    · rw [on (State.applyLevel_kept hd hc), on (State.applyLevel_kept hd (same.trans hc)), State.ahead_entry,
        State.ahead_setEntry]
      refine ih hrest ?_
      rw [State.levelsRemove_eq_find, ← h]
      congr 1
      refine List.find?_congr fun m hm => ?_
      refine State.decides_congr (Walker.setEntry_entry_other s.walker ?_ _)
      by_contra hn
      push Not at hn
      exact hl (List.mem_map.2 ⟨m, hm, Prod.ext hn.1.symm hn.2.symm⟩)
    · simp only [hd, Option.bind_some, Bool.false_eq_true, if_false, Option.some.injEq, Prod.mk.injEq] at h
      obtain ⟨rfl, rfl⟩ := h
      refine both ?_ (State.applyLevel_letsGo hd hc)
      rw [State.applyLevel_letsGo hd (same.trans hc), State.ahead_removeKey]
    · rw [on (State.applyLevel_down hd hc), on (State.applyLevel_down hd (same.trans hc))]
      refine ih hrest ?_
      rw [State.levelsRemove_eq_find]
      exact h
    · simp [hd] at h

/-! ### The key that an event removes -/

/-- The release of the HELD key lets it go by its mode (R65). -/
def State.goes (s : State) (p : Port) (k : Key) (stamp : Stamp) : Prop := (s.entry p k).state = .held
  ∧ ((s.entry p k).mode = .momentary ∨ (s.entry p k).mode = .auto ∧ 6400 ≤ (stamp - (s.entry p k).stamp).toNat)

theorem State.goes_iff (s : State) (p : Port) (k : Key) (stamp : Stamp) :
    s.goes p k stamp ↔ (s.entry p k).state = .held ∧ (s.entry p k).letsGo stamp = true := by
  rw [State.goes, KeyEntry.letsGo_iff]

theorem State.levelsRemove_iff (s : State) (q p : Port) (k : Key) (bitmap : BitVec 7) (stamp : Stamp) :
    s.levelsRemove (keyLevels q bitmap stamp) = some (p, k) ↔ q = p ∧ bitmap.getLsbD k.val = false
      ∧ s.goes p k stamp ∧ ∀ j : Key, j < k →
        (bitmap.getLsbD j.val = true → (s.entry p j).state ≠ .off ∨ (s.entry p j).swallow = true)
        ∧ (bitmap.getLsbD j.val = false → ¬ s.goes p j stamp) := by
  have passes (j : Key) : s.decides ⟨q, j, bitmap.getLsbD j.val, stamp⟩ = false ↔
      (bitmap.getLsbD j.val = true → (s.entry q j).state ≠ .off ∨ (s.entry q j).swallow = true)
      ∧ (bitmap.getLsbD j.val = false → ¬ s.goes q j stamp) := by
    rw [State.goes_iff]
    cases hd : bitmap.getLsbD j.val <;> simp [State.decides, -State.entry_eq, imp_iff_not_or]
  rw [State.levelsRemove_eq_find, keyLevels, List.find?_map, ← Fin.find?_eq_find?_finRange]
  constructor
  · intro h
    obtain ⟨l, hl, hk⟩ := Option.bind_eq_some_iff.1 h
    obtain ⟨j, hj, rfl⟩ := Option.map_eq_some_iff.1 hl
    obtain ⟨hdec, hbefore⟩ := Fin.find?_eq_some_iff.1 hj
    dsimp only at hk
    split at hk
    · cases hk
    · rename_i hd
      cases hk
      have hd : bitmap.getLsbD k.val = false := by simpa using hd
      refine ⟨rfl, hd, ?_, fun i hi => (passes i).1 (hbefore i hi)⟩
      rw [State.goes_iff]
      simpa [State.decides, hd] using hdec
  · rintro ⟨rfl, hd, hg, hbefore⟩
    have found : Fin.find? (s.decides ∘ fun j => (⟨q, j, bitmap.getLsbD j.val, stamp⟩ : KeyLevel)) = some k := by
      refine Fin.find?_eq_some_iff.2 ⟨?_, fun j hj => (passes j).2 (hbefore j hj)⟩
      rw [State.goes_iff] at hg
      simpa [State.decides, hd] using hg
    rw [found]
    simp only [Option.map_some, Option.bind_some, hd, Bool.false_eq_true, if_false]

/-- The events that remove a key (R64, R65, R67). -/
theorem State.removedBy_iff (s : State) (e : KeyEvent) (p : Port) (k : Key) : s.removedBy e = some (p, k) ↔
    (∃ stamp, e = .press p k stamp ∧ (s.entry p k).state = .latched)
      ∨ (∃ stamp, e = .release p k stamp ∧ (s.entry p k).swallow = false ∧ s.goes p k stamp)
      ∨ ∃ bitmap stamp, e = .state p bitmap stamp ∧ bitmap.getLsbD k.val = false ∧ s.goes p k stamp
        ∧ ∀ j : Key, j < k →
          (bitmap.getLsbD j.val = true → (s.entry p j).state ≠ .off ∨ (s.entry p j).swallow = true)
          ∧ (bitmap.getLsbD j.val = false → ¬ s.goes p j stamp) := by
  cases e with
  | press q j stamp =>
    simp only [State.removedBy]
    constructor
    · intro h
      split at h <;> cases h
      exact .inl ⟨stamp, rfl, ‹_›⟩
    · rintro (⟨_, h, hl⟩ | ⟨_, h, -⟩ | ⟨_, _, h, -⟩) <;> cases h
      exact if_pos hl
  | release q j stamp =>
    simp only [State.removedBy]
    constructor
    · intro h
      split at h <;> cases h
      rename_i hs
      exact .inr (.inl ⟨stamp, rfl, hs.1, (s.goes_iff p k stamp).2 hs.2⟩)
    · rintro (⟨_, h, -⟩ | ⟨_, h, hs, hg⟩ | ⟨_, _, h, -⟩) <;> cases h
      exact if_pos ⟨hs, (s.goes_iff p k stamp).1 hg⟩
  | state q bitmap stamp =>
    refine (s.levelsRemove_iff q p k bitmap stamp).trans ⟨?_, ?_⟩
    · rintro ⟨rfl, h⟩
      exact .inr (.inr ⟨bitmap, stamp, rfl, h⟩)
    · rintro (⟨_, h, -⟩ | ⟨_, h, -⟩ | ⟨_, _, h, hk⟩) <;> cases h
      exact ⟨rfl, hk⟩
  | cueOpen c =>
    refine ⟨nofun, ?_⟩
    rintro (⟨_, h, -⟩ | ⟨_, h, -⟩ | ⟨_, _, h, -⟩) <;> cases h
  | retry q j =>
    refine ⟨nofun, ?_⟩
    rintro (⟨_, h, -⟩ | ⟨_, h, -⟩ | ⟨_, _, h, -⟩) <;> cases h

/-- The event of a port that is UP does what it does without the removal ahead of it. -/
theorem State.handle_ahead {s : State} {e : KeyEvent} {p : Port} {k : Key} (hup : s.isUp p = true)
    (h : s.removedBy e = some (p, k)) : (s.ahead p k).handle e = s.handle e := by
  rcases (s.removedBy_iff e p k).1 h with ⟨stamp, rfl, hl⟩ | ⟨stamp, rfl, hs, hg⟩ | ⟨bitmap, stamp, rfl, -⟩
  · have pressed {t : State} (ht : (t.entry p k).state = .latched) :
        t.press p k stamp = (t.removeKey p k true, .done) := by
      simp only [State.press, ht]
    simp only [State.handle, State.ahead_isUp, hup, if_true]
    rw [pressed hl, pressed (by rwa [State.ahead_entry]), State.ahead_removeKey]
  · rw [State.goes_iff] at hg
    have released {t : State} (ht : t.entry p k = s.entry p k) :
        t.release p k stamp = (t.removeKey p k false, .done) := by
      simp only [State.release, State.releaseHeld, ht, hs, hg, Bool.false_eq_true, if_false, if_true]
    simp only [State.handle, State.ahead_isUp, hup, if_true]
    rw [released rfl, released (s.ahead_entry p k p k), State.ahead_removeKey]
  · simp only [State.handle, State.ahead_isUp, hup, if_true]
    refine State.applyLevels_ahead _ ?_ h
    rw [keyLevels, List.map_map]
    exact (List.nodup_finRange 5).map fun i j hij => congrArg Prod.snd hij

/-! ### REMOVE_KEY (R12) -/

theorem State.mayTake_iff (s : State) : s.mayTake = true ↔ s.walkerReady := by
  simp only [State.mayTake, State.resetPending, State.walkerReady, Bool.and_eq_true, Bool.not_eq_true',
    Bool.or_eq_false_iff, decide_eq_false_iff_not, beq_iff_eq, and_assoc]

section
variable {s : State} {p : Port} {k : Key}

theorem exec_keyEventTake_of_ready {e : KeyEvent} {rest : List KeyEvent} (hq : s.walker.queue = e :: rest)
    (hm : s.mayTake = true) :
    exec .keyEventTake s = .next ((s.setWalker { s.walker with queue := rest }).handle e) := by
  refine congrArg Host.Outcome.next ?_
  rw [hq]
  exact if_pos hm

theorem exec_removeKey_of_due {e : KeyEvent} {rest : List KeyEvent} (hq : s.walker.queue = e :: rest)
    (hd : s.mayTake = true ∧ s.isUp p = true ∧ s.removedBy e = some (p, k)) :
    exec (.removeKey p k) s = .next (s.ahead p k) := by
  refine congrArg Host.Outcome.next ?_
  rw [hq]
  exact if_pos hd

theorem exec_removeKey_of_not_due (h : ∀ e rest, s.walker.queue = e :: rest →
    ¬ (s.mayTake = true ∧ s.isUp p = true ∧ s.removedBy e = some (p, k))) :
    exec (.removeKey p k) s = .next s := by
  refine congrArg Host.Outcome.next ?_
  split
  · rfl
  · rename_i e rest hq
    exact if_neg (h e rest hq)

/-- KEY_EVENT_TAKE does what it does without the removal ahead of it. -/
theorem exec_keyEventTake_ahead {e : KeyEvent} {rest : List KeyEvent} (hq : s.walker.queue = e :: rest)
    (hm : s.mayTake = true) (hup : s.isUp p = true) (hr : s.removedBy e = some (p, k)) :
    exec .keyEventTake (s.ahead p k) = exec .keyEventTake s := by
  have walker : (s.ahead p k).walker = s.walker := State.setXps_walker ..
  have popped : (s.ahead p k).setWalker { s.walker with queue := rest } =
      (s.setWalker { s.walker with queue := rest }).ahead p k := s.setXps_setWalker _ _
  have hr' : (s.setWalker { s.walker with queue := rest }).removedBy e = some (p, k) :=
    (State.removedBy_iff _ e p k).2 ((s.removedBy_iff e p k).1 hr)
  have hm' : (s.ahead p k).mayTake = true := (s.setXps_mayTake _).trans hm
  have hq' : (s.ahead p k).walker.queue = e :: rest := by rw [walker, hq]
  rw [exec_keyEventTake_of_ready hq hm, exec_keyEventTake_of_ready hq' hm', walker, popped]
  exact congrArg Host.Outcome.next (State.handle_ahead (s := s.withQueue rest) hup hr')

end

/-! ### The other removals (R12, R20, R21, R96) -/

section
variable {s : State} {p : Port} {c : CircuitIx}

theorem exec_removePortKeys_of_left (h : s.installsLeftForPort p = true) : exec (.removePortKeys p) s = .next s :=
  congrArg Host.Outcome.next (if_pos h)

theorem exec_removePortKeys (hm : Request.removePortKeys p ∈ s.requests) (h : ¬ s.installsLeftForPort p = true) :
    exec (.removePortKeys p) s = .next ((s.setXps (s.xps.remove (Owner.isKeyOf p))).setRequests
      (s.requests.erase (.removePortKeys p) ++ [.portRowReset p])) := by
  refine congrArg Host.Outcome.next ((if_neg h).trans ?_)
  rw [State.take_of_mem s hm]
  rfl

theorem exec_removeCircuit_of_left (h : s.installsLeftForCircuit c = true) : exec (.removeCircuit c) s = .next s :=
  congrArg Host.Outcome.next (if_pos h)

theorem exec_removeCircuit (hm : Request.removeCircuit c ∈ s.requests) (h : ¬ s.installsLeftForCircuit c = true) :
    exec (.removeCircuit c) s = .next ((s.setXps (s.xps.remove (Owner.isCue c))).setRequests
      (s.requests.erase (.removeCircuit c))) := by
  refine congrArg Host.Outcome.next ((if_neg h).trans ?_)
  rw [State.take_of_mem s hm]
  rfl

theorem State.hand_hand (rs : List Request) (x : CrosspointSet) (a b : Request) :
    (((s.setRequests rs).setXps x).hand a).hand b = (s.setXps x).setRequests (rs ++ [a, b]) := by
  have two : rs ++ [a, b] = rs ++ [a] ++ [b] := by simp
  rw [two]
  rfl

theorem exec_removeKeysAndCues (hm : Request.removeKeysAndCues ∈ s.requests) {gone : Owner → Bool}
    (hg : ∀ o, gone o = !o.isController) : exec .removeKeysAndCues s =
      .next ((s.setXps { s.xps.remove gone with abandoned := none }).setRequests
        (s.requests.erase .removeKeysAndCues ++ [.walkerReset, .circuitAbort])) := by
  obtain rfl : gone = fun o => !o.isController := funext hg
  refine congrArg Host.Outcome.next ?_
  rw [State.take_of_mem s hm]
  exact State.hand_hand _ _ _ _

end

theorem Tag.ofPort_iff {t : Tag} {p : Port} : t.ofPort p = true ↔ ∃ k, t = .key p k := by
  cases t with
  | key q j =>
    refine ⟨fun h => ⟨j, by rw [beq_iff_eq.1 h]⟩, fun ⟨k, h⟩ => ?_⟩
    cases h
    exact beq_self_eq_true _
  | cue c => exact ⟨nofun, nofun⟩

theorem Owner.isKeyOf_iff {o : Owner} {p : Port} : Owner.isKeyOf p o = true ↔ ∃ k, o = .key p k := by
  cases o with
  | key q j =>
    refine ⟨fun h => ⟨j, by rw [beq_iff_eq.1 h]⟩, fun ⟨k, h⟩ => ?_⟩
    cases h
    exact beq_self_eq_true _
  | cue | controller => exact ⟨nofun, nofun⟩

/-- Settles O32: each removal by whether it is due, or whether installs for its owners are left. -/
theorem removalRequests : Obligations.RemovalRequests := by
  intro s
  refine ⟨fun p k => ⟨?_, ?_⟩, fun p hm => ⟨fun hw ha => ?_, fun r k hr ho => ?_, fun w rest k h hs ok hj ht hp => ?_⟩,
    fun c hm => ⟨fun hw ha => ?_, fun r hr ho => ?_, fun w rest h hs ok hj ht hp => ?_⟩, fun hm => ?_⟩
  · rintro ⟨hready, hup, e, rest, hq, he⟩
    have hr := (s.removedBy_iff e p k).2 he
    have hup : s.isUp p = true := by rw [State.isUp_eq, hup]; rfl
    have hm := s.mayTake_iff.2 hready
    exact ⟨exec_removeKey_of_due hq ⟨hm, hup, hr⟩, exec_keyEventTake_ahead hq hm hup hr⟩
  · intro hn
    refine exec_removeKey_of_not_due fun e rest hq ⟨hm, hup, hr⟩ => hn ⟨s.mayTake_iff.1 hm, ?_, e, rest, hq,
      (s.removedBy_iff e p k).1 hr⟩
    rwa [State.isUp_eq, beq_iff_eq] at hup
  · refine exec_removePortKeys hm fun hl => ?_
    rcases State.installsLeft_iff.1 hl with ⟨w, rest, x, xs, ok, hj, ht, hp⟩ | ⟨r, hr, ho⟩
    · obtain ⟨k, hk⟩ := Tag.ofPort_iff.1 ht
      exact hw w rest k x xs ok hj hk hp
    · obtain ⟨k, hk⟩ := Owner.isKeyOf_iff.1 ho
      exact ha r k hr hk
  · exact exec_removePortKeys_of_left (State.installsLeft_iff.2 (.inr ⟨r, hr, Owner.isKeyOf_iff.2 ⟨k, ho⟩⟩))
  · exact exec_removePortKeys_of_left
      (State.installsLeft_iff.2 (.inl ⟨w, rest, h, hs, ok, hj, Tag.ofPort_iff.2 ⟨k, ht⟩, hp⟩))
  · refine exec_removeCircuit hm fun hl => ?_
    rcases State.installsLeft_iff.1 hl with ⟨w, rest, x, xs, ok, hj, ht, hp⟩ | ⟨r, hr, ho⟩
    · exact hw w rest x xs ok hj (beq_iff_eq.1 ht) hp
    · exact ha r hr (beq_iff_eq.1 ho)
  · exact exec_removeCircuit_of_left (State.installsLeft_iff.2 (.inr ⟨r, hr, beq_iff_eq.2 ho⟩))
  · exact exec_removeCircuit_of_left (State.installsLeft_iff.2 (.inl ⟨w, rest, h, hs, ok, hj, beq_iff_eq.2 ht, hp⟩))
  · exact exec_removeKeysAndCues hm fun o => by cases o <;> rfl

end Sys2Proof.Machine
end

section
/-!
PROOFS, the frame start (R22, R23, R36, R133, R139, R147, R148): O4.
-/

namespace Sys2Proof.Machine

theorem CrosspointSet.connections_eq (x : CrosspointSet) :
    x.connections = (List.finRange 64).filterMap fun i => x.slots[i].connection? := by
  have all : x.slots.toList = (List.finRange 64).map fun i => x.slots[i] :=
    List.ext_getElem (by simp) fun i h1 h2 => by simp
  rw [CrosspointSet.connections, all, List.filterMap_map]
  rfl

/-- Without a frame start from the timing source nothing happens (R147). -/
theorem exec_frameStart_of_not_due {s : State} (ht : s.trunk.timing = .trunk) (hp : s.trunk.period = none) :
    exec .frameStart s = .next s := by
  have hd : s.trunk.frameDue = false := by simp [TrunkPort.frameDue, ht, hp]
  simp [exec, execFrameStart, hd]

/-! ### The sample of a port (R23, R133) -/

/-- Taking a sample changes the FIFO, the sample last handed and the slips alone. -/
theorem StationPort.takeSample_eq (x : StationPort) :
    x.takeSample = { x with fifo := x.takeSample.fifo, lastHanded := x.takeSample.lastHanded,
                            slips := x.takeSample.slips } := by
  rcases x.takeSample_cases with ⟨-, e⟩ | ⟨v, rest, -, -, e⟩ | ⟨-, -, e⟩ <;> rw [e]
  rfl

/-- The microphone value is that of the sample handed, where the port is UP and of a kind with a microphone. -/
theorem StationPort.raw_eq (x : StationPort) : x.raw = match x.link, x.kind with
    | .up, .beltpack | .up, .panel | .up, .desk => x.lastHanded.toInt
    | _, _ => 0 := by
  unfold StationPort.raw
  cases x.kind <;> cases x.link <;> rfl

/-! ### The inputs of the frame, and what the frame leaves -/

/-- What the mix of a frame start reads. -/
def State.frameInput (s : State) : MixInput := s.tickClock.mix.mixInput

section
variable (s : State)

theorem State.frameInput_conns : s.frameInput.conns = s.xps.connections := by
  simp [State.frameInput, State.mixInput]

theorem State.mix_ports : s.mix.ports = each s.ports fun _ x => x.takeSample := by
  simp [State.mix]

theorem State.frameInput_ports : s.frameInput.ports = each s.ports fun _ x => x.takeSample := by
  simp [State.frameInput, State.mixInput, State.mix_ports]

theorem State.frameInput_port (p : Port) : s.frameInput.ports[p] = s.ports[p].takeSample := by
  simp [State.frameInput_ports]

theorem State.frameInput_mic (p : Port) :
    s.frameInput.mics[p] = gated s.ports[p].takeSample.raw s.ports[p].takeSample.gate := by
  simp [State.frameInput, State.mixInput, State.mix_ports]

theorem State.frameInput_lane (n : Lane) :
    s.frameInput.lanes[n] = if s.trunk.sync = .locked then s.trunk.presented[n].toInt else 0 := by
  simp [State.frameInput, State.mixInput, State.tickClock]

/-- The mix engine counts the clips of the frame's inputs. -/
theorem State.frameStart_mixer : s.frameStart.mixer = s.mixer.count s.frameInput := by
  have input : s.frameInput = (s.tickClock.setPorts (each s.tickClock.ports fun _ x => x.takeSample)).mixInput := rfl
  rw [input]
  simp [State.frameStart, State.mix]

/-- A port has given its sample; beside it its downlink frame and its replies change. -/
theorem State.frameStart_port (p : Port) : ∃ f rs,
    s.frameStart.ports[p] = { s.ports[p].takeSample with txFrame := f, replies := rs } := by
  have sent : s.frameStart.ports[p] = s.tickClock.mix.sendDownlink s.frameInput p := by
    simp [State.frameStart, State.sendDownlinks, State.frameInput]
  have taken : s.tickClock.mix.ports[p] = s.ports[p].takeSample := by
    simp [State.mix_ports]
  rw [sent, State.sendDownlink, taken]
  exact ⟨_, _, rfl⟩

theorem State.frameStart_period : s.frameStart.trunk.period = none := by
  unfold State.frameStart
  obtain ⟨f, b, h | h⟩ := (s.tickClock.mix.sendDownlinks s.frameInput).outgoing_eq s.frameInput
  all_goals exact (congrArg (fun t : State => t.trunk.period) h).trans rfl

end

theorem clips_eq (x : Int) : clips x = decide (x < -32768 ∨ 32767 < x) := by
  rw [clips, Bool.decide_or]

/-- The inputs of the frame are those that the statements write out. -/
theorem State.frameInput_mixes (s : State) : s.mixes s.frameStart s.frameInput := by
  refine ⟨s.frameInput_conns, fun p => ?_, s.frameInput_lane, fun p => ?_⟩
  · obtain ⟨f, rs, hp⟩ := s.frameStart_port p
    rw [s.frameInput_mic, StationPort.raw_eq, hp, StationPort.takeSample_eq]
    rfl
  · rw [s.frameInput_port, StationPort.takeSample_eq]
    exact ⟨rfl, rfl⟩

/-- Settles O4: the frame start part by part; the samples by what the port has to give. -/
theorem frameStartClockAndSamples : Obligations.FrameStartClockAndSamples := by
  refine ⟨fun x => ?_, fun s => exec_frameStart_of_not_due, fun s hdue => ?_⟩
  · rw [CrosspointSet.connections_eq]
    rfl
  refine ⟨s.frameStart, s.frameInput, exec_frameStart_of_due hdue, s.frameInput_mixes, ⟨fun p => ?_, fun c => ?_⟩,
    s.frameStart_clock, s.frameStart_group, fun c => ?_, fun l hl => ?_, fun p => ?_, s.frameStart_sync,
    s.frameStart_laneMap, s.frameStart_lastGood, s.frameStart_period, s.frameStart_xps, s.frameStart_walker,
    s.frameStart_directory, s.frameStart_cueList, s.frameStart_faultLog, s.frameStart_requests, s.frameStart_pending⟩
  · simp only [s.frameStart_mixer, MixEngine.count, Fin.getElem_fin, each_get, countUp, bit, clips_eq,
      Config.counterTop]
  · simp only [s.frameStart_mixer, MixEngine.count, Fin.getElem_fin, each_get, countUp, MixInput.channelClips, clips_eq,
      Config.counterTop, List.countP_eq_length_filter]
  · rw [s.frameStart_circuits]
    simp only [Fin.getElem_fin, each_get]
    rfl
  · rw [s.frameStart_execution, hl]
    rfl
  · obtain ⟨f, rs, hp⟩ := s.frameStart_port p
    rw [hp]
    rcases s.ports[p].takeSample_cases with ⟨hl, e⟩ | ⟨v, rest, hl, hf, e⟩ | ⟨hl, hf, e⟩ <;> rw [e]
    · exact ⟨fun _ => ⟨rfl, rfl, rfl⟩, fun _ _ h => absurd h hl, fun h => absurd h hl, rfl, rfl, rfl⟩
    · refine ⟨fun h => absurd hl h, fun w ws _ h => ?_, fun _ h => ?_, rfl, rfl, rfl⟩ <;> rw [hf] at h <;> cases h
      exact ⟨rfl, rfl, rfl⟩
    · refine ⟨fun h => absurd hl h, fun w ws _ h => ?_, fun _ _ => ⟨hf, rfl, rfl⟩, rfl, rfl, rfl⟩
      rw [hf] at h
      cases h

end Sys2Proof.Machine
end

section
/-!
PROOFS, what the ports, the trunk port and the mix engine do not see. Most commands are of other blocks and leave
these three as they are: `State.Beside` says so, with one lemma for each operation that branches.
-/

namespace Sys2Proof

/-- The commands of the other blocks. Those left out reset the chip, start a frame, bring a frame in, or set up, resync
or answer a station port. -/
def Instr.beside : Instr → Bool
  | .pinReset _ | .frameStart | .trunkArrival _ | .missingFrame | .linkReport _ _ | .statePost _
  | .standbyRequest _ _ | .goRequest _ _ | .cancelRequest _ _ | .goNext _ | .standbyNext _ | .back _ | .skip _
  | .portResync _ | .portSetup | .laneMap => false
  | _ => true

namespace Machine

/-- The station ports, the trunk port and the clip counters stay as they are. -/
structure State.Beside (s t : State) : Prop where
  ports : t.ports = s.ports
  trunk : t.trunk = s.trunk
  mixer : t.mixer = s.mixer

namespace State.Beside

variable {s t u : State}

theorem refl (s : State) : s.Beside s := ⟨rfl, rfl, rfl⟩

theorem trans (h : s.Beside t) (h' : t.Beside u) : s.Beside u :=
  ⟨h'.ports.trans h.ports, h'.trunk.trans h.trunk, h'.mixer.trans h.mixer⟩

/-! ### The other fields of the state -/

theorem setWalker (h : s.Beside t) (x : Walker) : s.Beside (t.setWalker x) := h.trans ⟨rfl, rfl, rfl⟩
theorem setXps (h : s.Beside t) (x : CrosspointSet) : s.Beside (t.setXps x) := h.trans ⟨rfl, rfl, rfl⟩
theorem setRequests (h : s.Beside t) (x : List Request) : s.Beside (t.setRequests x) := h.trans ⟨rfl, rfl, rfl⟩
theorem setManagement (h : s.Beside t) (x : Management) : s.Beside (t.setManagement x) := h.trans ⟨rfl, rfl, rfl⟩
theorem setDirectory (h : s.Beside t) (x : Directory) : s.Beside (t.setDirectory x) := h.trans ⟨rfl, rfl, rfl⟩
theorem setCircuits (h : s.Beside t) (x : Vector Circuit 24) : s.Beside (t.setCircuits x) := h.trans ⟨rfl, rfl, rfl⟩
theorem setCueList (h : s.Beside t) (x : CueList) : s.Beside (t.setCueList x) := h.trans ⟨rfl, rfl, rfl⟩
theorem setFaultLog (h : s.Beside t) (x : FaultLog) : s.Beside (t.setFaultLog x) := h.trans ⟨rfl, rfl, rfl⟩
theorem setEntry (h : s.Beside t) (p : Port) (k : Key) (e : KeyEntry) : s.Beside (t.setEntry p k e) := h.setWalker _
theorem setJob (h : s.Beside t) (j : Job) : s.Beside (t.setJob j) := h.setWalker _
theorem enqueue (h : s.Beside t) (e : KeyEvent) : s.Beside (t.enqueue e) := h.setWalker _
theorem setCircuit (h : s.Beside t) (c : CircuitIx) (x : Circuit) : s.Beside (t.setCircuit c x) := h.setCircuits _
theorem hand (h : s.Beside t) (r : Request) : s.Beside (t.hand r) := h.setRequests _
theorem report (h : s.Beside t) (kind : FaultKind) (loc : Location) : s.Beside (t.report kind loc) := h.hand _
theorem execute (h : s.Beside t) (e : Execution) : s.Beside (t.execute e) := h.setManagement _
theorem accessEnded (h : s.Beside t) : s.Beside t.accessEnded := h.setDirectory _

/-! ### Operations that the blocks share -/

theorem offer (h : s.Beside t) (body : NoticeBody) : s.Beside (t.offer body) :=
  h.trans ⟨t.offer_ports body, t.offer_trunk body, t.offer_mixer body⟩

theorem answer (h : s.Beside t) (a : Answer) : s.Beside (t.answer a) :=
  h.trans ⟨t.answer_ports a, t.answer_trunk a, t.answer_mixer a⟩

theorem suppress (h : s.Beside t) (these : Tag → Bool) : s.Beside (t.suppress these) :=
  h.trans ⟨t.suppress_ports these, t.suppress_trunk these, t.suppress_mixer these⟩

theorem reply (h : s.Beside t) (r : Reply) : s.Beside (t.reply r) := by
  rcases t.reply_cases r with ⟨-, e⟩ | ⟨-, e⟩ <;> rw [e]
  · exact h.setManagement _
  · exact h

theorem postCueOpen (h : s.Beside t) (c : CircuitIx) : s.Beside (t.postCueOpen c) := by
  rcases t.postCueOpen_cases c with ⟨-, e⟩ | ⟨-, e⟩ <;> rw [e]
  · exact h.enqueue _
  · exact h.report _ _

theorem reportAll (h : s.Beside t) (faults : List (FaultKind × Location)) : s.Beside (t.reportAll faults) := by
  rw [State.reportAll_eq]
  exact h.setRequests _

theorem foldl_hand (h : s.Beside t) (rs : List Request) : s.Beside (rs.foldl State.hand t) := by
  rw [State.foldl_hand]
  exact h.setRequests _

theorem take (h : s.Beside t) {r : Request} {effect : State → State} (he : ∀ u : State, u.Beside (effect u)) :
    s.Beside (t.take r effect) := by
  rcases t.take_cases r effect with ⟨-, e⟩ | ⟨-, e⟩ <;> rw [e]
  · exact (h.setRequests _).trans (he _)
  · exact h

theorem resetTaken (h : s.Beside t) : s.Beside t.resetTaken := by
  rcases t.resetTaken_cases with e | ⟨_, -, -, e⟩ <;> rw [e]
  · exact h
  · exact h.answer _

theorem begin {code : Nat} {effect : List Byte → State → State} (he : ∀ ps, s.Beside (effect ps s)) :
    s.Beside (s.begin code effect) := by
  rcases s.begin_cases code effect with e | ⟨c, rest, -, -, -, ⟨-, e⟩ | ⟨-, e⟩⟩ <;> rw [e]
  · exact refl s
  · exact (refl s).answer _
  · exact he _

theorem beginRead (code : Nat) (read : List Byte → State → Answer) (s : State) : s.Beside (s.beginRead code read) :=
  begin fun _ => (refl s).answer _

theorem install (h : s.Beside t) (r : Install) : s.Beside (t.install r).1 := by
  obtain ⟨m, rs, e⟩ := t.install_eq r
  rw [e]
  exact ((h.setXps _).setManagement _).setRequests _

theorem handles (h : s.Beside t) (hu : t.Handles u) : s.Beside u := by
  rw [hu.others]
  exact (h.setXps _).setWalker _

/-! ### Circuits and the cue list -/

theorem offerCueEvent (h : s.Beside t) (c : CircuitIx) (cue : Option CueNumber) : s.Beside (t.offerCueEvent c cue) :=
  h.offer _

theorem offerChanges (h : s.Beside t) (before : Vector Circuit 24) : s.Beside (t.offerChanges before) := by
  rw [State.offerChanges_eq]
  generalize (t.changedFrom before).map t.cueEvent = bodies
  induction bodies generalizing t with
  | nil => exact h
  | cons b rest ih => exact ih (h.offer b)

theorem standbyQuiet (h : s.Beside t) (c : CircuitIx) (cue : Option CueNumber) :
    s.Beside (t.standbyQuiet c cue).1 := by
  rw [State.standbyQuiet_eq]
  dsimp only
  split
  · exact (h.setCircuit _ _).postCueOpen c
  · exact h.setCircuit _ _

theorem standby (h : s.Beside t) (c : CircuitIx) (cue : Option CueNumber) : s.Beside (t.standby c cue).1 :=
  (h.standbyQuiet c cue).offerChanges _

theorem goQuiet (h : s.Beside t) (c : CircuitIx) (cue : Option CueNumber) : s.Beside (t.goQuiet c cue).1 := by
  unfold State.goQuiet
  dsimp only
  split
  · exact h.setCircuit _ _
  · exact h

theorem go (h : s.Beside t) (c : CircuitIx) (cue : Option CueNumber) : s.Beside (t.go c cue).1 :=
  (h.goQuiet c cue).offerChanges _

theorem toIdle (h : s.Beside t) (c : CircuitIx) (x : Circuit) : s.Beside (t.toIdle c x) :=
  (((h.setCircuit _ _).offerCueEvent _ _).hand _).suppress _

theorem cancel (h : s.Beside t) (c : CircuitIx) : s.Beside (t.cancel c).1 := by
  unfold State.cancel
  dsimp only
  split
  case h_5 => exact h
  all_goals exact h.toIdle c _

theorem standbyAll (h : s.Beside t) (cue : CueNumber) (cs : List CircuitIx) :
    s.Beside (State.standbyAll cue cs t).1 := by
  induction cs generalizing t with
  | nil => exact h
  | cons c rest ih => exact ih (h.standbyQuiet c _)

theorem goAll (h : s.Beside t) (cue : CueNumber) (cs : List CircuitIx) : s.Beside (t.goAll cue cs) := by
  unfold State.goAll
  induction cs generalizing t with
  | nil => exact h
  | cons c rest ih => exact ih (h.goQuiet c _)

theorem autoStandby (h : s.Beside t) : s.Beside t.autoStandby.1 := by
  unfold State.autoStandby
  split
  · split
    · exact h.standbyAll _ _
    · exact h
  · exact h

theorem goNext (h : s.Beside t) : s.Beside t.goNext.1 := by
  unfold State.goNext
  split
  · exact h
  · split
    · exact h
    · exact ((h.goAll _ _).setCueList _).autoStandby.offerChanges _

theorem standbyNext (h : s.Beside t) : s.Beside t.standbyNext.1 := by
  unfold State.standbyNext
  split
  · exact h
  · dsimp only
    split <;> exact (h.standbyAll _ _).offerChanges _

theorem back (h : s.Beside t) : s.Beside t.back.1 := by
  unfold State.back
  split
  · exact h
  · exact h.setCueList _

theorem skip (h : s.Beside t) : s.Beside t.skip.1 := by
  unfold State.skip
  split
  · exact h
  · exact h.setCueList _

theorem takeLostMark (h : s.Beside t) (p : Port) (lost : Bool) : s.Beside (t.takeLostMark p lost) := by
  unfold State.takeLostMark
  split
  · exact h.take fun u => (refl u).setCircuits _
  · exact h

theorem abortCircuit (h : s.Beside t) (c : CircuitIx) : s.Beside (t.abortCircuit c) := by
  unfold State.abortCircuit
  dsimp only
  split
  · exact h
  · exact (h.setCircuit _ _).offerCueEvent _ _

theorem abortCircuits (h : s.Beside t) (cs : List CircuitIx) : s.Beside (cs.foldl State.abortCircuit t) := by
  induction cs generalizing t with
  | nil => exact h
  | cons c rest ih => exact ih (h.abortCircuit c)

/-! ### Walks -/

theorem applyLevels (h : s.Beside t) (ls : List KeyLevel) : s.Beside (t.applyLevels ls) := by
  obtain ⟨u, j, hu, -, e⟩ := t.applyLevels_eq ls
  rw [e]
  exact (h.handles hu).setJob _

theorem handle (h : s.Beside t) (e : KeyEvent) : s.Beside (t.handle e) := by
  rcases t.handle_eq e with e | ⟨u, j, hu, -, e⟩ <;> rw [e]
  · exact h
  · exact (h.handles hu).setJob _

theorem endWalk (h : s.Beside t) (w : Walk) (rest : List KeyLevel) : s.Beside (t.endWalk w rest) :=
  ((h.setDirectory _).setDirectory _).applyLevels rest

theorem walkMissed (h : s.Beside t) (w : Walk) : s.Beside (t.walkMissed w) := by
  unfold State.walkMissed
  dsimp only
  split
  · exact (h.setEntry _ _ _).offer _
  · exact h.offer _

theorem walkOutcome (h : s.Beside t) (w : Walk) (ok : Bool) : s.Beside (t.walkOutcome w ok) := by
  have decided : s.Beside (match w.tag with
      | .key p k =>
        if ok then t.setEntry p k { t.entry p k with state := .held, lamp := if w.busyHeld then .busy else .on }
        else (t.setEntry p k { t.entry p k with state := .refused, lamp := .busy }).report .slotExhausted (.port p)
      | .cue c => if ok then t else t.report .slotExhausted (.circuit c)) := by
    split <;> split
    · exact h.setEntry _ _ _
    · exact (h.setEntry _ _ _).report _ _
    · exact h
    · exact h.report _ _
  unfold State.walkOutcome
  dsimp only
  split
  · exact decided.offer _
  · exact decided

theorem installHit (h : s.Beside t) (tag : Tag) (x : Hit) : s.Beside (t.installHit tag x).1 := by
  unfold State.installHit
  split
  · exact h.install _
  · exact h

/-! ### Cells, table RAM and the fault log -/

theorem handCell (h : s.Beside t) (cell : List Byte) : s.Beside (t.handCell cell) := by
  unfold State.handCell State.admitCommand State.data
  dsimp only
  split
  · split
    · exact h.setManagement _
    · exact h.reply _
  · split
    · split
      · exact h.reply _
      · exact h.execute _
    all_goals exact h.reply _
  all_goals exact h

theorem readPlace (h : s.Beside t) (i : Place) (upsets : Upsets) : s.Beside (t.readPlace i upsets) := by
  unfold State.readPlace
  dsimp only
  split <;> exact ((h.setDirectory _).reportAll _).answer _

theorem access (h : s.Beside t) (a : Access) (upsets : Upsets) : s.Beside (t.access a upsets) := by
  unfold State.access
  refine accessEnded ?_
  split
  · exact h.readPlace _ _
  · exact (h.setDirectory _).answer _
  · exact (h.setDirectory _).answer _

theorem askPort (h : s.Beside t) (a : Access) (upsets : Upsets) : s.Beside (t.askPort a upsets) := by
  unfold State.askPort
  split
  · exact h.access _ _
  · exact h.execute _

theorem writeRecord (h : s.Beside t) (l : Load) (r : Record) (rest : List Record) :
    s.Beside (t.writeRecord l r rest) := by
  unfold State.writeRecord State.closeLoad
  dsimp only
  split
  · exact h.answer _
  · split
    · exact (h.setDirectory _).answer _
    · exact (h.setDirectory _).execute _

theorem newFault (h : s.Beside t) (kind : FaultKind) (loc : Location) (overflow : Bool) (log : FaultLog) :
    s.Beside (t.newFault kind loc overflow log) := by
  unfold State.newFault
  dsimp only
  split
  · exact (h.setFaultLog _).setCueList _
  · exact ((h.setFaultLog _).setCueList _).offer _

theorem logFault (h : s.Beside t) (kind : FaultKind) (loc : Location) : s.Beside (t.logFault kind loc) := by
  unfold State.logFault
  dsimp only
  split
  · exact h.setFaultLog _
  · split
    · exact h.newFault _ _ _ _
    · split
      · exact h.newFault _ _ _ _
      · exact h.setFaultLog _

theorem retire (h : s.Beside t) (i : SlotIx) : s.Beside (t.retire i) := by
  unfold State.retire
  dsimp only
  split
  · exact (h.foldl_hand _).setXps _
  · split
    · exact (h.setXps _).offer _
    · exact h.setXps _
  · exact h.setXps _
  · exact h

end State.Beside

/-! ### Events -/

open State (Beside)

theorem beside_keyEventTake : Leads State.Beside .keyEventTake := by
  refine fun s => ⟨_, rfl, ?_⟩
  split
  · exact .refl s
  · split
    · exact ((Beside.refl s).setWalker _).handle _
    · exact .refl s

theorem beside_walkStart (upsets : Upsets) : Leads State.Beside (.walkStart upsets) := by
  refine fun s => ⟨_, rfl, ?_⟩
  split
  · split
    · exact (((Beside.refl s).setDirectory _).setJob _).reportAll _
    · exact .refl s
  all_goals exact .refl s

theorem beside_walkEnd : Leads State.Beside .walkEnd := by
  refine fun s => ⟨_, rfl, ?_⟩
  split
  · rename_i w rest _
    split
    · split
      · exact .refl s
      · split
        · split
          · exact ((Beside.refl s).walkMissed w).endWalk w rest
          · have making := (Beside.refl s).handles (s.startMaking_eq w).1
            dsimp only
            split
            · exact (making.walkOutcome w _).endWalk w rest
            · exact making.setJob _
        · exact (Beside.refl s).endWalk w rest
    · exact ((Beside.refl s).walkOutcome w _).endWalk w rest
    · exact .refl s
  all_goals exact .refl s

theorem beside_crosspointInstall : Leads State.Beside .crosspointInstall := by
  refine fun s => ⟨_, rfl, ?_⟩
  split
  · rename_i w rest _
    split
    · rename_i x hs ok _
      have installed := (Beside.refl s).installHit w.tag x
      exact (installed.handles ((State.Handles.refl _).settleCalls w.tag hs _).1).setJob _
    all_goals exact .refl s
  · exact ((Beside.refl s).install _).setXps _
  · exact .refl s

theorem beside_removeKey (p : Port) (k : Key) : Leads State.Beside (.removeKey p k) := by
  refine fun s => ⟨_, rfl, ?_⟩
  split
  · exact .refl s
  · split
    · exact (Beside.refl s).setXps _
    · exact .refl s

theorem beside_busyLampRequest (p : Port) (k : Key) : Leads State.Beside (.busyLampRequest p k) := by
  refine fun s => ⟨_, rfl, (Beside.refl s).take fun u => ?_⟩
  split
  · split
    · exact (Beside.refl u).setJob _
    · exact (Beside.refl u).setEntry _ _ _
  all_goals exact (Beside.refl u).setEntry _ _ _

theorem beside_removePortKeys (p : Port) : Leads State.Beside (.removePortKeys p) := by
  refine fun s => ⟨_, rfl, ?_⟩
  split
  · exact .refl s
  · exact (Beside.refl s).take fun u => ((Beside.refl u).setXps _).hand _

theorem beside_removeCircuit (c : CircuitIx) : Leads State.Beside (.removeCircuit c) := by
  refine fun s => ⟨_, rfl, ?_⟩
  split
  · exact .refl s
  · exact (Beside.refl s).take fun u => (Beside.refl u).setXps _

theorem beside_portRowReset (p : Port) : Leads State.Beside (.portRowReset p) := by
  refine fun s => ⟨_, rfl, ?_⟩
  split
  · exact (Beside.refl s).take fun u => (Beside.refl u).setWalker _
  · exact .refl s

theorem beside_lostMarkSet (p : Port) : Leads State.Beside (.lostMarkSet p) := by
  refine fun s => ⟨_, rfl, ?_⟩
  split
  · exact ((Beside.refl s).setRequests _).takeLostMark p true
  · exact .refl s

theorem beside_answer (p : Port) (l : CrewLamp) : Leads State.Beside (.answer p l) := by
  refine fun s => ⟨_, rfl, ?_⟩
  split
  · exact (Beside.refl s).take fun u => ((Beside.refl u).setCircuits _).offerChanges _
  · exact .refl s

theorem beside_standbyTimerExpiry (c : CircuitIx) : Leads State.Beside (.standbyTimerExpiry c) := by
  refine fun s => ⟨_, rfl, ?_⟩
  dsimp only
  split
  · exact ((Beside.refl s).setCircuit _ _).offerCueEvent _ _
  · exact .refl s

theorem beside_goHoldExpiry (c : CircuitIx) : Leads State.Beside (.goHoldExpiry c) := by
  refine fun s => ⟨_, rfl, ?_⟩
  dsimp only
  split
  · split
    · exact ((Beside.refl s).setCircuit _ _).offerCueEvent _ _
    · exact (Beside.refl s).toIdle _ _
  · exact .refl s

theorem beside_ramInitialisationEnd : Leads State.Beside .ramInitialisationEnd := by
  refine fun s => ⟨_, rfl, ?_⟩
  split
  · exact (Beside.refl s).setDirectory _
  · exact .refl s

theorem beside_tablePortGrant (upsets : Upsets) : Leads State.Beside (.tablePortGrant upsets) := by
  refine fun s => ⟨_, rfl, ?_⟩
  split
  · split
    · exact (Beside.refl s).access _ _
    · exact .refl s
  all_goals exact .refl s

theorem beside_recordWrite : Leads State.Beside .recordWrite := by
  refine fun s => ⟨_, rfl, ?_⟩
  split
  · split
    · split
      · exact ((Beside.refl s).writeRecord _ _ _).accessEnded
      · exact .refl s
    · exact .refl s
  all_goals exact .refl s

theorem beside_loadTimerExpiry : Leads State.Beside .loadTimerExpiry := by
  refine fun s => ⟨_, rfl, ?_⟩
  split
  · split
    · exact ((Beside.refl s).answer _).report _ _
    · exact .refl s
  all_goals exact .refl s

/-! ### Commands of the management engine -/

theorem beside_unknownCommand : Leads State.Beside .unknownCommand := by
  refine fun s => ⟨_, rfl, ?_⟩
  split
  · exact .refl s
  · split
    · exact (Beside.refl s).answer _
    · exact .refl s

theorem beside_softReset (ps : List Byte) (s : State) : s.Beside (softReset ps s) := by
  rw [softReset_eq]
  exact (((((Beside.refl s).setManagement _).setDirectory _).setXps _).setWalker _).setRequests _

theorem beside_slotEnable (ps : List Byte) (s : State) : s.Beside (slotEnable ps s) := by
  unfold slotEnable
  dsimp only
  split
  · exact (Beside.refl s).answer _
  · exact ((Beside.refl s).setXps _).answer _

theorem beside_slotRetire (ps : List Byte) (s : State) : s.Beside (slotRetire ps s) := by
  unfold slotRetire
  split
  · exact (Beside.refl s).answer _
  · exact ((Beside.refl s).retire _).answer _

theorem beside_installCrosspoint (ps : List Byte) (s : State) : s.Beside (installCrosspoint ps s) := by
  unfold installCrosspoint
  dsimp only
  split
  · exact ((Beside.refl s).install _).answer _
  · exact (Beside.refl s).answer _

theorem beside_removeCrosspoint (ps : List Byte) (s : State) : s.Beside (removeCrosspoint ps s) := by
  unfold removeCrosspoint
  split
  · exact (Beside.refl s).answer _
  · split
    · split
      · exact ((Beside.refl s).setXps _).answer _
      · exact (Beside.refl s).answer _
    all_goals exact (Beside.refl s).answer _

theorem beside_setGain (ps : List Byte) (s : State) : s.Beside (setGain ps s) := by
  unfold setGain
  dsimp only
  split
  · exact (Beside.refl s).answer _
  · split
    · exact ((Beside.refl s).setXps _).answer _
    all_goals exact (Beside.refl s).answer _

theorem beside_directorySetup (ps : List Byte) (s : State) : s.Beside (directorySetup ps s) := by
  unfold directorySetup
  split
  · exact (Beside.refl s).answer _
  · exact (Beside.refl s).askPort _ _

theorem beside_selectScene (ps : List Byte) (s : State) : s.Beside (selectScene ps s) := by
  unfold selectScene
  split
  · exact (Beside.refl s).answer _
  · exact (Beside.refl s).askPort _ _

theorem beside_readRecord (upsets : Upsets) (ps : List Byte) (s : State) : s.Beside (readRecord upsets ps s) := by
  unfold readRecord
  split
  · exact (Beside.refl s).answer _
  · exact (Beside.refl s).askPort _ _

theorem beside_writeRecords (ps : List Byte) (s : State) : s.Beside (writeRecords ps s) := by
  unfold writeRecords
  dsimp only
  split
  · exact (Beside.refl s).answer _
  · exact (Beside.refl s).execute _

theorem beside_retryKey (ps : List Byte) (s : State) : s.Beside (retryKey ps s) := by
  unfold retryKey
  split
  · split
    · split
      · exact ((Beside.refl s).enqueue _).answer _
      · exact (Beside.refl s).answer _
    · exact (Beside.refl s).answer _
  · exact (Beside.refl s).answer _

theorem beside_circuitSetup (ps : List Byte) (s : State) : s.Beside (circuitSetup ps s) := by
  unfold circuitSetup
  dsimp only
  split
  · split
    · exact ((Beside.refl s).setCircuit _ _).answer _
    · exact (Beside.refl s).answer _
  · exact (Beside.refl s).answer _

theorem beside_cueCommand {f : CircuitIx → State → State × Status} (hf : ∀ c (u : State), u.Beside (f c u).1)
    (ps : List Byte) (s : State) : s.Beside (cueCommand f ps s) := by
  unfold cueCommand
  split
  · exact (Beside.refl s).answer _
  · exact (hf _ s).answer _

theorem beside_cueNext (ps : List Byte) (s : State) : s.Beside (cueNext ps s) := by
  refine Beside.answer ?_ _
  rcases listRequest_cases (byteAt ps 0).toNat with h | h | h | h | h <;> rw [h]
  · exact (Beside.refl s).goNext
  · exact (Beside.refl s).standbyNext
  · exact (Beside.refl s).back
  · exact (Beside.refl s).skip
  · exact .refl s

theorem beside_cueListWrite (ps : List Byte) (s : State) : s.Beside (cueListWrite ps s) := by
  unfold cueListWrite
  dsimp only
  split
  · split
    · exact (Beside.refl s).answer _
    · exact ((Beside.refl s).setCueList _).answer _
  · exact (Beside.refl s).answer _

theorem beside_cueListTruncate (ps : List Byte) (s : State) : s.Beside (cueListTruncate ps s) := by
  unfold cueListTruncate
  dsimp only
  split
  · exact (Beside.refl s).answer _
  · exact ((Beside.refl s).setCueList _).answer _

theorem beside_readFaults (ps : List Byte) (s : State) : s.Beside (readFaults ps s) := by
  unfold readFaults
  dsimp only
  split <;> exact ((Beside.refl s).setFaultLog _).answer _

theorem beside_setLock (next : LockState → LockState) (ps : List Byte) (s : State) : s.Beside (setLock next ps s) :=
  ((Beside.refl s).setManagement _).answer _

/-! ### All of them -/

/-- Every command of another block leaves the ports, the trunk port and the clip counters as they are. -/
theorem leads_beside {i : Instr} (hi : i.beside = true) : Leads State.Beside i := by
  cases i with
  | ramInitialisationEnd => exact beside_ramInitialisationEnd
  | keyEventTake => exact beside_keyEventTake
  | walkStart upsets => exact beside_walkStart upsets
  | walkEnd => exact beside_walkEnd
  | busyLampRequest p k => exact beside_busyLampRequest p k
  | crosspointInstall => exact beside_crosspointInstall
  | removeKey p k => exact beside_removeKey p k
  | removePortKeys p => exact beside_removePortKeys p
  | removeCircuit c => exact beside_removeCircuit c
  | removeKeysAndCues =>
    exact fun s => ⟨_, rfl, (Beside.refl s).take fun u => (((Beside.refl u).setXps _).hand _).hand _⟩
  | portRowReset p => exact beside_portRowReset p
  | lostMarkSet p => exact beside_lostMarkSet p
  | lostMarkClear p => exact fun s => ⟨_, rfl, (Beside.refl s).takeLostMark p false⟩
  | answer p l => exact beside_answer p l
  | standbyTimerExpiry c => exact beside_standbyTimerExpiry c
  | goHoldExpiry c => exact beside_goHoldExpiry c
  | unknownCommand => exact beside_unknownCommand
  | identify => exact fun s => ⟨_, rfl, .beginRead _ _ s⟩
  | softReset => exact fun s => ⟨_, rfl, .begin fun ps => beside_softReset ps s⟩
  | walkerReset => exact fun s => ⟨_, rfl, (Beside.refl s).take fun u => ((Beside.refl u).setWalker _).resetTaken⟩
  | circuitAbort =>
    exact fun s => ⟨_, rfl, (Beside.refl s).take fun u => ((Beside.refl u).abortCircuits _).resetTaken⟩
  | portStatus => exact fun s => ⟨_, rfl, .beginRead _ _ s⟩
  | slotEnable => exact fun s => ⟨_, rfl, .begin fun ps => beside_slotEnable ps s⟩
  | slotRetire => exact fun s => ⟨_, rfl, .begin fun ps => beside_slotRetire ps s⟩
  | installCrosspoint => exact fun s => ⟨_, rfl, .begin fun ps => beside_installCrosspoint ps s⟩
  | removeCrosspoint => exact fun s => ⟨_, rfl, .begin fun ps => beside_removeCrosspoint ps s⟩
  | setGain => exact fun s => ⟨_, rfl, .begin fun ps => beside_setGain ps s⟩
  | readSlot => exact fun s => ⟨_, rfl, .beginRead _ _ s⟩
  | directorySetup => exact fun s => ⟨_, rfl, .begin fun ps => beside_directorySetup ps s⟩
  | writeRecords => exact fun s => ⟨_, rfl, .begin fun ps => beside_writeRecords ps s⟩
  | readRecord upsets => exact fun s => ⟨_, rfl, .begin fun ps => beside_readRecord upsets ps s⟩
  | selectScene => exact fun s => ⟨_, rfl, .begin fun ps => beside_selectScene ps s⟩
  | tablePortGrant upsets => exact beside_tablePortGrant upsets
  | recordWrite => exact beside_recordWrite
  | loadTimerExpiry => exact beside_loadTimerExpiry
  | retryKey => exact fun s => ⟨_, rfl, .begin fun ps => beside_retryKey ps s⟩
  | circuitSetup => exact fun s => ⟨_, rfl, .begin fun ps => beside_circuitSetup ps s⟩
  | readCircuit => exact fun s => ⟨_, rfl, .beginRead _ _ s⟩
  | cueStandby =>
    exact fun s => ⟨_, rfl, .begin fun ps => beside_cueCommand (fun _ u => (Beside.refl u).standby _ _) ps s⟩
  | cueGo => exact fun s => ⟨_, rfl, .begin fun ps => beside_cueCommand (fun _ u => (Beside.refl u).go _ _) ps s⟩
  | cueCancel =>
    exact fun s => ⟨_, rfl, .begin fun ps => beside_cueCommand (fun _ u => (Beside.refl u).cancel _) ps s⟩
  | cueNext => exact fun s => ⟨_, rfl, .begin fun ps => beside_cueNext ps s⟩
  | cueListWrite => exact fun s => ⟨_, rfl, .begin fun ps => beside_cueListWrite ps s⟩
  | cueListTruncate => exact fun s => ⟨_, rfl, .begin fun ps => beside_cueListTruncate ps s⟩
  | cueCursor => exact fun s => ⟨_, rfl, .begin fun _ => ((Beside.refl s).setCueList _).answer _⟩
  | readCueList => exact fun s => ⟨_, rfl, .beginRead _ _ s⟩
  | readLastCue => exact fun s => ⟨_, rfl, .beginRead _ _ s⟩
  | readFaults => exact fun s => ⟨_, rfl, .begin fun ps => beside_readFaults ps s⟩
  | clearFaults => exact fun s => ⟨_, rfl, .begin fun _ => ((Beside.refl s).setFaultLog _).answer _⟩
  | lockShow => exact fun s => ⟨_, rfl, .begin fun ps => beside_setLock _ ps s⟩
  | unlockShow => exact fun s => ⟨_, rfl, .begin fun ps => beside_setLock _ ps s⟩
  | freezeShow => exact fun s => ⟨_, rfl, .begin fun ps => beside_setLock _ ps s⟩
  | faultReport kind loc => exact fun s => ⟨_, rfl, (Beside.refl s).take fun u => (Beside.refl u).logFault kind loc⟩
  | _ => cases hi

end Machine

end Sys2Proof
end

section
/-!
PROOFS, the soundness of the station ports, the trunk port and the clip counters under every command: O59.
-/

namespace Sys2Proof.Machine

open State (Beside)

/-! ### One station port -/

/-- What `StationPort.sound` asks of a port, named part by part. -/
structure StationPort.SoundParts (x : StationPort) : Prop where
  goodRun : x.goodRun ≤ 16
  badRun : x.badRun < 8
  fifo : x.fifo.length ≤ 8
  slips : x.slips ≤ 65535
  assembler : x.assembler.length ≤ 3
  replies : x.replies.length ≤ 2
  gate : x.gate ≤ 1023
  floor : x.floor ≤ 255
  master : x.master ≤ 256
  sidetone : x.sidetone ≤ 256
  duck : x.duck ≤ 256
  unused : x.kind = .unused → x.link = .down
  quiet : x.link ≠ .up → x.fifo = [] ∧ x.assembler = [] ∧ x.replies = [] ∧ x.resync = false

theorem StationPort.sound_iff (x : StationPort) : x.sound ↔ x.SoundParts := by
  constructor
  · rintro ⟨h1, h2, h3, h4, h5, h6, h7, h8, h9, h10, h11, h12, h13⟩
    exact ⟨h1, h2, h3, h4, h5, h6, h7, h8, h9, h10, h11, h12, h13⟩
  · rintro ⟨h1, h2, h3, h4, h5, h6, h7, h8, h9, h10, h11, h12, h13⟩
    exact ⟨h1, h2, h3, h4, h5, h6, h7, h8, h9, h10, h11, h12, h13⟩

@[simp] theorem StationPort.takeFrame_link (x : StationPort) (u : Uplink) : (x.takeFrame u).link = x.link := by
  rw [StationPort.takeFrame, StationPort.push_eq]

namespace StationPort.SoundParts

variable {x : StationPort}

/-- A drop leaves a port DOWN with nothing in it (R130). -/
theorem dropped (h : x.SoundParts) : x.dropped.SoundParts :=
  { h with
    goodRun := Nat.zero_le _
    badRun := Nat.zero_lt_succ _
    fifo := Nat.zero_le _
    assembler := Nat.zero_le _
    replies := Nat.zero_le _
    unused := fun _ => rfl
    quiet := fun _ => ⟨rfl, rfl, rfl, rfl⟩ }

/-- The FIFO of an UP port never passes its 8 samples, nor the slips 65535 (R133). -/
theorem push (h : x.SoundParts) (hl : x.link = .up) (v : Sample) : (x.push v).SoundParts := by
  rw [StationPort.push_eq]
  have := h.fifo
  have := h.slips
  exact { h with
    fifo := by
      dsimp only
      split <;> simp only [List.length_append, List.length_tail, List.length_singleton] <;> omega
    slips := by
      dsimp only
      split <;> omega
    quiet := fun hn => absurd hl hn }

theorem takeFrame (h : x.SoundParts) (hl : x.link = .up) (u : Uplink) : (x.takeFrame u).SoundParts :=
  push (x := { x with lastGood := u.sample, keys := u.keys }) { h with } hl u.sample

theorem takeSample (h : x.SoundParts) : x.takeSample.SoundParts := by
  have fifo := h.fifo
  rcases x.takeSample_cases with ⟨-, e⟩ | ⟨v, rest, hl, hf, e⟩ | ⟨-, -, e⟩ <;> rw [e]
  · exact h
  · rw [hf, List.length_cons] at fifo
    exact { h with
      fifo := by dsimp only; omega
      quiet := fun hn => absurd hl hn }
  · exact { h with slips := Nat.min_le_right _ _ }

theorem afterByte_length (rs : List (List Byte)) : (afterByte rs).length ≤ rs.length := by
  unfold afterByte
  split
  · exact Nat.le_refl _
  · split <;> simp

/-- The port whose downlink frame has been built (R137, R138). -/
theorem sent (h : x.SoundParts) (f : Option (List Byte)) :
    ({ x with txFrame := f, replies := if x.link = .up then afterByte x.replies else x.replies } :
      StationPort).SoundParts :=
  { h with
    replies := by
      have := h.replies
      have := afterByte_length x.replies
      dsimp only
      split <;> omega
    quiet := fun hn => by
      dsimp only at hn ⊢
      rw [if_neg hn]
      exact h.quiet hn }

/-- The resync flag of an UP port is free. -/
theorem resync (h : x.SoundParts) (hl : x.link = .up) (b : Bool) :
    ({ x with resync := b } : StationPort).SoundParts :=
  { h with quiet := fun hn => absurd hl hn }

theorem resyncCleared (h : x.SoundParts) : ({ x with resync := false } : StationPort).SoundParts :=
  { h with
    quiet := fun hn => by
      obtain ⟨hf, ha, hr, -⟩ := h.quiet hn
      exact ⟨hf, ha, hr, rfl⟩ }

/-- PORT SETUP brings the settings into their ranges, and an UNUSED port is DOWN (R140). -/
theorem set (h : x.SoundParts) (kind : PortKind) (hk : kind = .unused → x.link = .down) (v : PortSettings) :
    (({ x with kind := kind } : StationPort).set v.clamped).SoundParts :=
  { h with
    gate := Nat.min_le_right _ _
    floor := Nat.min_le_right _ _
    master := Nat.min_le_right _ _
    sidetone := Nat.min_le_right _ _
    duck := Nat.min_le_right _ _
    unused := hk }

/-- The runs of a port count frames (R128). -/
theorem runs (h : x.SoundParts) (good bad : Nat) (hg : good ≤ 16) (hb : bad < 8) :
    ({ x with goodRun := good, badRun := bad } : StationPort).SoundParts :=
  { h with goodRun := hg, badRun := hb }

/-- A port in training, or back from it, holds nothing (R128). -/
theorem notUp (h : x.SoundParts) (hn : x.link ≠ .up) {link : LinkState} (hu : x.kind = .unused → link = .down)
    (good bad : Nat) (hg : good ≤ 16) (hb : bad < 8) (keys : BitVec 7) :
    ({ x with link := link, goodRun := good, badRun := bad, keys := keys } : StationPort).SoundParts :=
  { h with goodRun := hg, badRun := hb, unused := hu, quiet := fun _ => h.quiet hn }

/-- The desk assembler of an UP port holds what it is given, at most three bytes (R136). -/
theorem assemblerSet (h : x.SoundParts) (hl : x.link = .up) (bytes : List Byte) (hb : bytes.length ≤ 3) :
    ({ x with assembler := bytes } : StationPort).SoundParts :=
  { h with assembler := hb, quiet := fun hn => absurd hl hn }

theorem assemblerCleared (h : x.SoundParts) : ({ x with assembler := [] } : StationPort).SoundParts :=
  { h with
    assembler := Nat.zero_le _
    quiet := fun hn => by
      obtain ⟨hf, -, hr⟩ := h.quiet hn
      exact ⟨hf, rfl, hr⟩ }

/-- A frame that counts for an UP port, or brings one UP (R128). -/
theorem up (h : x.SoundParts) (hk : x.kind ≠ .unused) (good bad : Nat) (hg : good ≤ 16) (hb : bad < 8) (b : Bool) :
    ({ x with link := .up, goodRun := good, badRun := bad, resync := b } : StationPort).SoundParts :=
  { h with goodRun := hg, badRun := hb, unused := fun hu => absurd hu hk, quiet := fun hn => absurd rfl hn }

end StationPort.SoundParts

/-! ### The relation that every command is in -/

/-- The step keeps the ports, the trunk port and the clip counters sound, each for itself. -/
structure State.KeepsLines (s t : State) : Prop where
  ports : (∀ p : Port, s.ports[p].SoundParts) → ∀ p : Port, t.ports[p].SoundParts
  trunk : s.trunk.sound → t.trunk.sound
  mixer : s.mixer.sound → t.mixer.sound

namespace State.KeepsLines

variable {s t u : State}

theorem refl (s : State) : s.KeepsLines s := ⟨id, id, id⟩

theorem trans (h : s.KeepsLines t) (h' : t.KeepsLines u) : s.KeepsLines u :=
  ⟨h'.ports ∘ h.ports, h'.trunk ∘ h.trunk, h'.mixer ∘ h.mixer⟩

theorem beside (h : s.KeepsLines t) (hb : t.Beside u) : s.KeepsLines u :=
  h.trans ⟨by rw [hb.ports]; exact id, by rw [hb.trunk]; exact id, by rw [hb.mixer]; exact id⟩

/-- One port is set to a record that is sound if the one before was. -/
theorem setPort (s : State) (p : Port) {x : StationPort} (hx : s.ports[p].SoundParts → x.SoundParts) :
    s.KeepsLines (s.setPort p x) where
  ports hs q := by
    simp only [State.setPort_ports, Fin.getElem_fin, put_get]
    split
    · exact hx (hs p)
    · exact hs q
  trunk := id
  mixer := id

theorem setTrunk (s : State) {x : TrunkPort} (hx : s.trunk.sound → x.sound) : s.KeepsLines (s.setTrunk x) :=
  ⟨id, hx, id⟩

theorem take (s : State) (r : Request) {effect : State → State} (he : ∀ u : State, u.KeepsLines (effect u)) :
    s.KeepsLines (s.take r effect) := by
  rcases s.take_cases r effect with ⟨-, e⟩ | ⟨-, e⟩ <;> rw [e]
  · exact ((refl s).beside ((Beside.refl s).setRequests _)).trans (he _)
  · exact refl s

theorem begin {code : Nat} {effect : List Byte → State → State} (he : ∀ ps, s.KeepsLines (effect ps s)) :
    s.KeepsLines (s.begin code effect) := by
  rcases s.begin_cases code effect with e | ⟨c, rest, -, -, -, ⟨-, e⟩ | ⟨-, e⟩⟩ <;> rw [e]
  · exact refl s
  · exact (refl s).beside ((Beside.refl s).answer _)
  · exact he _

end State.KeepsLines

open State (KeepsLines)

/-! ### Desks (R136, R137) -/

theorem State.deskReply_keepsLines (s : State) (p : Port) (seq : Byte) (status : Status) :
    s.KeepsLines (s.deskReply p seq status) := by
  rcases s.deskReply_cases p seq status with e | ⟨hl, hr, e⟩ <;> rw [e]
  · exact .refl s
  · exact .setPort s p fun h => { h with
      replies := by simp only [List.length_append, List.length_singleton]; omega
      quiet := fun hn => absurd hl hn }

/-- A desk request is taken by a block that leaves the ports alone, and its result returns to the desk. -/
theorem State.takeDesk_keepsLines (s : State) (p : Port) (r : DeskRequest) {effect : State → State × Status}
    (he : ∀ u : State, u.Beside (effect u).1) : s.KeepsLines (s.takeDesk p r effect) := by
  unfold State.takeDesk
  split
  · rename_i seq wanted r' _
    split
    · have taken : s.Beside (effect (s.setRequests (s.requests.erase (.desk p seq wanted r)))).1 :=
        ((Beside.refl s).setRequests _).trans (he _)
      dsimp only
      split
      · exact ((KeepsLines.refl s).beside taken).trans (State.deskReply_keepsLines _ _ _ _)
      · exact (KeepsLines.refl s).beside taken
    · exact .refl s
  · exact .refl s

theorem assemble_length {held : List Byte} (b : Byte) (start : Bool) (h : held.length ≤ 3) :
    (assemble held b start).1.length ≤ 3 := by
  unfold assemble
  split
  · simp
  · split
    · simp
    · split
      · simp only [List.length_append, List.length_singleton]
        omega
      · simp

theorem State.deskMessage_keepsLines (s : State) (p : Port) (bytes : List Byte) :
    s.KeepsLines (s.deskMessage p bytes) := by
  unfold State.deskMessage
  split
  · dsimp only
    split
    · exact (KeepsLines.refl s).beside ((Beside.refl s).hand _)
    · exact State.deskReply_keepsLines s _ _ _
  · exact .refl s

theorem State.deskByte_keepsLines {s : State} {p : Port} (hl : s.ports[p].link = .up) (u : Uplink) :
    s.KeepsLines (s.deskByte p u) := by
  unfold State.deskByte
  dsimp only
  split
  · have assembled := KeepsLines.setPort s p fun h =>
      h.assemblerSet hl (assemble s.ports[p].assembler u.message u.start).1 (assemble_length _ _ h.assembler)
    split
    · exact assembled.trans (State.deskMessage_keepsLines _ _ _)
    · exact assembled
  · exact .refl s

/-! ### Frames of a station line (R128, R132, R134) -/

/-- The edges of a frame set the resync flag of its port at most; the rest of what they do is the walker's. -/
theorem State.edges_beside (s : State) (p : Port) (before after : BitVec 7) :
    ∃ b, (s.setPort p { s.ports[p] with resync := b }).Beside (s.edges p before after) := by
  have answered {u t : State} (h : u.Beside t) (l : CrewLamp) (was is : Bool) :
      u.Beside (t.answerEdge p l was is) := by
    unfold State.answerEdge
    split
    · exact h.hand _
    · exact h
  unfold State.edges
  rw [State.foldl_talkEdge]
  exact ⟨_, answered (answered (((Beside.refl _).setWalker _).setRequests _) _ _ _) _ _ _⟩

/-- The edges of an UP port keep it UP. -/
theorem State.edges_keepsLines {s : State} {p : Port} (hl : s.ports[p].link = .up) (before after : BitVec 7) :
    s.KeepsLines (s.edges p before after) ∧ (s.edges p before after).ports[p].link = .up := by
  obtain ⟨b, hb⟩ := s.edges_beside p before after
  refine ⟨(KeepsLines.setPort s p fun h => h.resync hl b).beside hb, ?_⟩
  rw [hb.ports]
  simpa using hl

theorem State.dropPort_beside (p : Port) (s : State) : (s.setPort p s.ports[p].dropped).Beside (s.dropPort p) := by
  rw [State.dropPort_eq]
  exact ((Beside.refl _).setRequests _).suppress _

theorem State.dropPort_keepsLines (p : Port) (s : State) : s.KeepsLines (s.dropPort p) :=
  (KeepsLines.setPort s p StationPort.SoundParts.dropped).beside (s.dropPort_beside p)

theorem State.goodFrame_keepsLines {s : State} {p : Port} (hk : s.ports[p].kind ≠ .unused) (u : Uplink) :
    s.KeepsLines (s.goodFrame p u) := by
  unfold State.goodFrame
  dsimp only
  split
  · rename_i hl
    exact .setPort s p fun h => h.notUp (by rw [hl]; decide) (absurd · hk) 1 0 (by decide) (by decide) u.keys
  · rename_i hl
    split
    · exact .setPort s p fun h =>
        h.notUp (by rw [hl]; decide) (absurd · hk) _ 0 (Nat.min_le_right _ _) (by decide) u.keys
    · have risen := KeepsLines.setPort s p fun h =>
        (h.up hk (min (s.ports[p].goodRun + 1) Config.goodRunUp) 0 (Nat.min_le_right _ _) (by decide)
          true).takeFrame rfl u
      exact (risen.beside ((Beside.refl _).hand _)).trans (State.deskByte_keepsLines (by simp) u)
  · rename_i hl
    have taken := KeepsLines.setPort s p fun h =>
      (StationPort.SoundParts.runs h (min (s.ports[p].goodRun + 1) Config.goodRunUp) 0 (Nat.min_le_right _ _)
        (by decide)).takeFrame hl u
    have edged := State.edges_keepsLines (s := s.setPort p ({ s.ports[p] with
      goodRun := min (s.ports[p].goodRun + 1) Config.goodRunUp, badRun := 0 }.takeFrame u)) (p := p)
      (by simpa using hl) s.ports[p].keys u.keys
    exact (taken.trans edged.1).trans (State.deskByte_keepsLines edged.2 u)

/-- A bad or missing frame: the eighth drops an UP port, and ends a training (R128, R132). -/
theorem State.lostFrame_keepsLines (s : State) (p : Port) (held : Bool) : s.KeepsLines (s.lostFrame p held) := by
  unfold State.lostFrame
  dsimp only
  split
  · exact .setPort s p fun h => h.runs 0 0 (Nat.zero_le _) (by decide)
  · rename_i hl
    split
    · exact .setPort s p fun h => h.runs 0 _ (Nat.zero_le _) ‹_›
    · exact .setPort s p fun h =>
        h.assemblerCleared.notUp (by rw [hl]; decide) (fun _ => rfl) 0 0 (Nat.zero_le _) (by decide) _
  · rename_i hl
    split
    · refine .setPort s p fun h => ?_
      have counted := h.assemblerCleared.runs 0 (s.ports[p].badRun + 1) (Nat.zero_le _) ‹_›
      split
      · exact counted.push hl _
      · exact counted
    · exact s.dropPort_keepsLines p

theorem State.goDown_keepsLines (p : Port) (s : State) : s.KeepsLines (s.goDown p) := by
  unfold State.goDown
  split
  · exact s.dropPort_keepsLines p
  · rename_i hl
    exact .setPort s p fun h =>
      h.assemblerCleared.notUp (by rw [hl]; decide) (fun _ => rfl) 0 0 (Nat.zero_le _) (by decide) _
  · exact .refl s

theorem State.goDown_link (p : Port) (s : State) : (s.goDown p).ports[p].link = .down := by
  unfold State.goDown
  split
  · rw [(s.dropPort_beside p).ports]
    simp [StationPort.dropped]
  · simp
  · assumption

theorem keepsLines_linkReport (p : Port) (report : UplinkReport) : Leads State.KeepsLines (.linkReport p report) := by
  refine fun s => ⟨_, rfl, ?_⟩
  split
  · exact .refl s
  · split
    · exact s.lostFrame_keepsLines p false
    · split
      · exact State.goodFrame_keepsLines ‹_› _
      · exact s.lostFrame_keepsLines p true

/-- PORT SETUP changes the kind of a port that is DOWN alone (R140). -/
theorem keepsLines_portSetup : Leads State.KeepsLines .portSetup := by
  refine fun s => ⟨_, rfl, .begin fun ps => ?_⟩
  unfold portSetup
  split
  · rename_i p kind _ _
    have stored {u : State} (hu : u.ports[p].SoundParts → kind = .unused → u.ports[p].link = .down) :
        u.KeepsLines (u.setPort p (({ u.ports[p] with kind := kind } : StationPort).set
          (PortSettings.read ps).clamped)) :=
      .setPort u p fun h => h.set kind (hu h) _
    dsimp only
    split
    · rename_i hk
      exact (stored fun h hu => h.unused (hk ▸ hu)).beside ((Beside.refl _).answer _)
    · exact ((s.goDown_keepsLines p).trans (stored fun _ _ => s.goDown_link p)).beside ((Beside.refl _).answer _)
  · exact (KeepsLines.refl s).beside ((Beside.refl s).answer _)

/-- A soft reset sets the resync flag of a port that is UP (R142). -/
theorem keepsLines_portResync (p : Port) : Leads State.KeepsLines (.portResync p) := by
  refine fun s => ⟨_, rfl, .take s _ fun u => ?_⟩
  split
  · rename_i hl
    exact (KeepsLines.setPort u p fun h => h.resync (by simpa using hl) true).beside ((Beside.refl _).resetTaken)
  · exact (KeepsLines.refl u).beside (Beside.refl u).resetTaken

theorem keepsLines_statePost (p : Port) : Leads State.KeepsLines (.statePost p) := by
  refine fun s => ⟨_, rfl, ?_⟩
  dsimp only
  split
  · exact (KeepsLines.setPort s p fun h => h.resyncCleared).beside ((Beside.refl _).enqueue _)
  · exact .refl s

/-! ### The trunk line (R143 to R147) -/

/-- A bad or missing frame in LOCKED: the third brings the trunk reinit (R145, R146). -/
theorem State.loseFrame_keepsLines {s : State} (hl : s.trunk.sync = .locked) (held : Period) :
    s.KeepsLines (s.loseFrame held) := by
  unfold State.loseFrame
  dsimp only
  split
  · refine (KeepsLines.setTrunk s fun h => ?_).beside ((Beside.refl _).report _ _)
    obtain ⟨hg, -, ht, -⟩ := h
    exact ⟨hg, by dsimp only; omega, ht, fun hn => absurd hl hn⟩
  · refine (KeepsLines.setTrunk s fun h => ?_).beside ((Beside.refl _).report _ _)
    exact ⟨Nat.zero_le _, Nat.zero_le _, by simp [TrunkPort.reinit], fun _ => ⟨rfl, rfl, rfl⟩⟩

theorem State.takeTrunkFrame_keepsLines {s : State} (hl : s.trunk.sync = .locked) (f : TrunkFrame) :
    s.KeepsLines (s.takeTrunkFrame f) := by
  have took (field : CellField) : s.KeepsLines (s.setTrunk { s.trunk with
      badRun := 0, presented := f.lanes, lastGood := f.lanes, upstreamLost := f.upstreamLost
      period := some (.taken f.number f.upstreamLost f.lanes field) }) := by
    refine .setTrunk s fun ⟨hg, _, ht, _⟩ => ?_
    exact ⟨hg, Nat.zero_le _, ht, fun hn => absurd hl hn⟩
  unfold State.takeTrunkFrame
  dsimp only
  split
  · exact (took _).beside ((Beside.refl _).report _ _)
  · exact (took _).beside ((Beside.refl _).handCell _)
  · exact took _

/-- Between HUNT and VERIFY the port stays under LOCAL timing, with every lane 0 (R144, R147). -/
theorem TrunkPort.sound.unlocked {t : TrunkPort} (h : t.sound) (hl : t.sync ≠ .locked) {sync : SyncState}
    (hs : sync ≠ .locked) (good : Nat) (hg : good ≤ 4) :
    ({ t with sync := sync, goodRun := good } : TrunkPort).sound := by
  obtain ⟨-, hb, ht, hn⟩ := h
  exact ⟨hg, hb, ⟨fun h => absurd (ht.1 h) hl, fun h => absurd h hs⟩, fun _ => hn hl⟩

/-- The fourth good frame in VERIFY makes the port LOCKED under TRUNK timing (R144, R147). -/
theorem TrunkPort.sound.verified {t : TrunkPort} (h : t.sound) (hv : t.sync = .verify) : t.verified.sound := by
  unfold TrunkPort.verified
  split
  · have := h.unlocked (sync := t.sync) (by rw [hv]; decide) (by rw [hv]; decide) (t.goodRun + 1) (by omega)
    exact this
  · obtain ⟨-, hb, -, -⟩ := h
    exact ⟨Nat.le_refl _, hb, ⟨fun _ => rfl, fun _ => rfl⟩, fun hn => absurd rfl hn⟩

theorem TrunkPort.sound.toHunt {t : TrunkPort} (h : t.sound) (hv : t.sync = .verify) : t.toHunt.sound :=
  h.unlocked (by rw [hv]; decide) (by decide) 0 (Nat.zero_le _)

theorem keepsLines_trunkArrival (bytes : List Byte) : Leads State.KeepsLines (.trunkArrival bytes) := by
  refine fun s => ⟨_, rfl, ?_⟩
  have found (hh : s.trunk.sync = .hunt) :
      s.KeepsLines (s.setTrunk { s.trunk with sync := .verify, goodRun := 0 }) :=
    .setTrunk s fun h => h.unlocked (by rw [hh]; decide) (by decide) 0 (Nat.zero_le _)
  split
  · exact .refl s
  · exact found ‹_›
  · exact found ‹_›
  · exact .setTrunk s fun h => h.verified ‹_›
  · exact .setTrunk s fun h => h.toHunt ‹_›
  · exact State.takeTrunkFrame_keepsLines ‹_› _
  · exact State.loseFrame_keepsLines ‹_› _

theorem keepsLines_missingFrame : Leads State.KeepsLines .missingFrame := by
  refine fun s => ⟨_, rfl, ?_⟩
  split
  · exact .refl s
  · exact .setTrunk s fun h => h.toHunt ‹_›
  · exact State.loseFrame_keepsLines ‹_› _

/-! ### The frame start -/

/-- A port at the end of a frame start: its sample is taken, and its downlink frame has been built. -/
theorem State.frameStart_port_sent (s : State) (p : Port) : ∃ f, s.frameStart.ports[p] =
    { s.ports[p].takeSample with
      txFrame := f
      replies := if s.ports[p].takeSample.link = .up then afterByte s.ports[p].takeSample.replies
        else s.ports[p].takeSample.replies } := by
  have sent : s.frameStart.ports[p] = s.tickClock.mix.sendDownlink s.frameInput p := by
    simp [State.frameStart, State.sendDownlinks, State.frameInput]
  have taken : s.tickClock.mix.ports[p] = s.ports[p].takeSample := by
    simp [State.mix_ports]
  rw [sent, State.sendDownlink, taken]
  exact ⟨_, rfl⟩

/-- The counters stop at 65535 (R36). -/
theorem MixEngine.count_sound (e : MixEngine) (m : MixInput) : (e.count m).sound := by
  refine ⟨fun p => ?_, fun c => ?_⟩ <;> simp only [MixEngine.count, Fin.getElem_fin, each_get]
  all_goals exact Nat.min_le_right _ _

theorem State.frameStart_keepsLines (s : State) : s.KeepsLines s.frameStart where
  ports hs p := by
    obtain ⟨f, e⟩ := s.frameStart_port_sent p
    rw [e]
    exact (hs p).takeSample.sent f
  trunk h := by
    obtain ⟨hg, hb, ht, hn⟩ := h
    unfold TrunkPort.sound
    rw [s.frameStart_goodRun, s.frameStart_badRun, s.frameStart_timing, s.frameStart_sync, s.frameStart_presented,
      s.frameStart_lastGood]
    exact ⟨hg, hb, ht, hn⟩
  mixer _ := by
    rw [s.frameStart_mixer]
    exact MixEngine.count_sound _ _

theorem keepsLines_frameStart : Leads State.KeepsLines .frameStart := by
  refine fun s => ⟨_, rfl, ?_⟩
  split
  · exact s.frameStart_keepsLines
  · exact .refl s

/-! ### Every command -/

theorem MixEngine.initial_sound : MixEngine.initial.sound := by
  simp [MixEngine.sound, MixEngine.initial]

theorem keepsLines_pinReset (straps : Fin 8) : Leads State.KeepsLines (.pinReset straps) := fun s => ⟨_, rfl, {
  ports := fun _ p => by
    rw [State.initial_port]
    exact (StationPort.sound_iff _).1 StationPort.initial_sound
  trunk := fun _ => TrunkPort.initial_sound straps
  mixer := fun _ => MixEngine.initial_sound }⟩

/-- The soundness of the trunk port does not speak of the lane map. -/
theorem TrunkPort.sound.setLaneMap {t : TrunkPort} (h : t.sound) (map : Vector LaneUse 48) :
    ({ t with laneMap := map } : TrunkPort).sound := h

theorem keepsLines_laneMap : Leads State.KeepsLines .laneMap := by
  refine fun s => ⟨_, rfl, .begin fun ps => ?_⟩
  have mapped : s.KeepsLines (s.setTrunk { s.trunk with laneMap := laneMapRead ps }) := .setTrunk s fun h =>
    h.setLaneMap _
  exact mapped.beside ((Beside.refl _).answer _)

theorem leads_keepsLines (i : Instr) : Leads State.KeepsLines i := by
  cases i with
  | pinReset straps => exact keepsLines_pinReset straps
  | frameStart => exact keepsLines_frameStart
  | trunkArrival bytes => exact keepsLines_trunkArrival bytes
  | missingFrame => exact keepsLines_missingFrame
  | linkReport p report => exact keepsLines_linkReport p report
  | statePost p => exact keepsLines_statePost p
  | standbyRequest p c => exact fun s => ⟨_, rfl, s.takeDesk_keepsLines p _ fun u => (Beside.refl u).standby _ _⟩
  | goRequest p c => exact fun s => ⟨_, rfl, s.takeDesk_keepsLines p _ fun u => (Beside.refl u).go _ _⟩
  | cancelRequest p c => exact fun s => ⟨_, rfl, s.takeDesk_keepsLines p _ fun u => (Beside.refl u).cancel _⟩
  | goNext p => exact fun s => ⟨_, rfl, s.takeDesk_keepsLines p _ fun u => (Beside.refl u).goNext⟩
  | standbyNext p => exact fun s => ⟨_, rfl, s.takeDesk_keepsLines p _ fun u => (Beside.refl u).standbyNext⟩
  | back p => exact fun s => ⟨_, rfl, s.takeDesk_keepsLines p _ fun u => (Beside.refl u).back⟩
  | skip p => exact fun s => ⟨_, rfl, s.takeDesk_keepsLines p _ fun u => (Beside.refl u).skip⟩
  | portResync p => exact keepsLines_portResync p
  | portSetup => exact keepsLines_portSetup
  | laneMap => exact keepsLines_laneMap
  | _ =>
    exact fun s =>
      have ⟨t, ht, hb⟩ := leads_beside rfl s
      ⟨t, ht, (KeepsLines.refl s).beside hb⟩

/-- Settles O59: every command keeps each of the three, by `State.Beside` for those of other blocks and by the line's
or the frame start's own argument for the rest. -/
theorem portsTrunkAndMixerStaySound : Obligations.PortsTrunkAndMixerStaySound := by
  refine ⟨?_, ?_, ?_⟩
  · simp only [StationPort.sound_iff]
    exact kept_of_leads (fun _ _ h => h) fun i s =>
      have ⟨t, ht, hk⟩ := leads_keepsLines i s
      ⟨t, ht, hk.ports⟩
  · exact kept_of_leads (fun _ _ h => h) fun i s =>
      have ⟨t, ht, hk⟩ := leads_keepsLines i s
      ⟨t, ht, hk.trunk⟩
  · exact kept_of_leads (fun _ _ h => h) fun i s =>
      have ⟨t, ht, hk⟩ := leads_keepsLines i s
      ⟨t, ht, hk.mixer⟩

end Sys2Proof.Machine
end

section
/-!
PROOFS, the mix (R26 to R35): O5 and O6.
-/

namespace Sys2Proof.Machine

/-! ### The value of a channel (R26 to R29) -/

/-- Nothing scaled is nothing: the half added before the floor is lost in it. -/
@[simp] theorem scale_zero (g : Nat) : scale 0 g = 0 := by simp [scale]

/-- What two mixes give through a test is the same where the sources that the test admits are. -/
theorem MixInput.sumDirect_congr {m m' : MixInput} {test : Connection → Bool} (hc : m.conns = m'.conns)
    (hd : ∀ x, test x = true → m.direct x.source = m'.direct x.source) : m.sumDirect test = m'.sumDirect test := by
  unfold MixInput.sumDirect
  rw [hc]
  refine congrArg List.sum (List.map_congr_left fun x hx => ?_)
  rw [hd x (List.mem_filter.1 hx).2]

/-- A sum falls into the sources that a second test admits and those that it does not. -/
theorem MixInput.sumDirect_split (m : MixInput) (test also : Connection → Bool) :
    m.sumDirect test = m.sumDirect (fun x => test x && also x) + m.sumDirect fun x => test x && !also x := by
  unfold MixInput.sumDirect
  induction m.conns with
  | nil => rfl
  | cons x rest ih =>
    simp only [List.filter_cons]
    cases test x <;> cases also x <;> simp [ih] <;> omega

/-- Local minus Own is what the other ports give: port `p`'s own microphone is in neither (R28). -/
theorem MixInput.localSum_sub_ownSum (m : MixInput) (c : Channel) (p : Port) : m.localSum c - m.ownSum c p =
    m.sumDirect fun x => x.dest == .channel c && x.fromPort && !(x.source == .port p) := by
  have own : m.ownSum c p = m.sumDirect fun x => x.dest == .channel c && x.fromPort && x.source == .port p := by
    unfold MixInput.ownSum
    congr 1
    funext x
    cases h : x.source == Endpoint.port p with
    | false => simp
    | true => simp [Connection.fromPort, eq_of_beq h, Endpoint.isPort]
  rw [MixInput.localSum, m.sumDirect_split _ fun x => x.source == .port p, own]
  omega

/-- A sum with its terms as the statements write them: a channel gives none. -/
theorem MixInput.sumDirect_eq (m : MixInput) (test : Connection → Bool) : m.sumDirect test =
    ((m.conns.filter test).map fun x => match x.source with
      | .port q => (m.mics[q] * x.gain + 128) / 256
      | .lane j => (m.lanes[j] * x.gain + 128) / 256
      | .channel _ => 0).sum := by
  refine congrArg List.sum (List.map_congr_left fun x _ => ?_)
  cases x.source with
  | port q => rfl
  | lane j => rfl
  | channel c => exact scale_zero _

/-- Settles O5: the sums are the model's; towards a port its own microphone is in no term that is left, and towards a
lane no lane is. -/
theorem mixMinusAndNoRingReturn : Obligations.MixMinusAndNoRingReturn := by
  refine ⟨fun m c p n => ?_, fun m m' c p hc hl hm => ?_, fun m m' c n hc hm => ?_⟩
  · have localEq := m.sumDirect_eq fun x => x.dest == .channel c && x.fromPort
    refine ⟨?_, localEq⟩
    exact congrArg₂ (· + ·) (congrArg₂ (· - ·) localEq (m.sumDirect_eq _)) (m.sumDirect_eq _)
  · have others : m.localSum c - m.ownSum c p = m'.localSum c - m'.ownSum c p := by
      simp only [MixInput.localSum_sub_ownSum]
      refine MixInput.sumDirect_congr hc fun x hx => ?_
      cases hs : x.source with
      | port q =>
        refine hm q fun hq => ?_
        simp [hs, hq] at hx
      | lane j => simp [Connection.fromPort, hs, Endpoint.isPort] at hx
      | channel d => rfl
    have remote : m.remoteSum c = m'.remoteSum c :=
      MixInput.sumDirect_congr hc fun x hx => by
        cases hs : x.source with
        | port q => simp [Connection.fromLane, hs] at hx
        | lane j => simp [MixInput.direct, hl]
        | channel d => rfl
    rw [MixInput.channelValue, MixInput.channelValue, others, remote]
  · refine MixInput.sumDirect_congr hc fun x hx => ?_
    cases hs : x.source with
    | port q => simp [MixInput.direct, hm]
    | lane j => simp [Connection.fromPort, hs, Endpoint.isPort] at hx
    | channel d => rfl

/-! ### Outputs (R30 to R35) -/

/-- A value within the sample range is narrowed without loss. -/
theorem toSample_toInt {x : Int} (hl : -32768 ≤ x) (hh : x ≤ 32767) : (toSample x).toInt = x := by
  rw [toSample, BitVec.toInt_ofInt]
  exact Int.bmod_eq_of_le (by omega) (by omega)

theorem sat_range (x : Int) : -32768 ≤ sat x ∧ sat x ≤ 32767 := by
  unfold sat
  omega

theorem sat_toSample (x : Int) : (toSample (sat x)).toInt = sat x :=
  toSample_toInt (sat_range x).1 (sat_range x).2

/-- The headset sample is the saturated output after the floor, unwrapped (R33). -/
theorem MixInput.headset_toInt (m : MixInput) (p : Port) :
    (m.headset p).toInt = floored (sat (m.portOutput p)) m.ports[p].floor := by
  obtain ⟨hl, hh⟩ := sat_range (m.portOutput p)
  refine toSample_toInt ?_ ?_ <;> unfold floored <;> split <;> omega

theorem MixInput.laneOutput_toInt (m : MixInput) (n : Lane) : (m.laneOutput n).toInt =
    sat ((m.conns.filter fun x => x.dest == .lane n).map m.contribution).sum := sat_toSample _

/-- A port is ducked by the PRIORITY and CUE_CALL slots into it (R31). -/
theorem ducked_eq (conns : List Connection) (p : Port) : ducked conns p =
    conns.any fun y => (y.cls == .priority || y.cls == .cueCall) && y.dest == .port p := by
  unfold ducked
  congr 1
  funext y
  cases y.cls <;> rfl

/-- Settles O6: contributions and outputs are the model's sums; the samples are read through the saturation. -/
theorem outputsAreSaturated : Obligations.OutputsAreSaturated := by
  refine fun m => ⟨fun x => ?_, fun p => ?_, fun p => ?_, m.laneOutput_toInt⟩
  · unfold MixInput.contribution
    cases x.source <;> rfl
  · dsimp only
    rw [← ducked_eq]
    rfl
  · rw [m.headset_toInt]
    generalize m.portOutput p = o
    generalize m.ports[p].floor = floor
    unfold floored sat
    refine ⟨?_, fun h1 h2 h3 => ?_, fun h1 h2 => ?_, fun h1 h2 => ?_, fun h1 h2 => ?_⟩
    all_goals split <;> omega

end Sys2Proof.Machine
end

section
/-!
PROOFS, the directory's terms: places of a region, tags of records, and reads of table RAM after the errors, scrubs
and writes of the statements (R45, R46, R48 to R51).
-/

namespace Sys2Proof.Machine

/-! ### Indices -/

theorem index?_eq_some {n x : Nat} {i : Fin n} : index? n x = some i ↔ x = i.val := by
  unfold index?
  split
  · simp [Fin.ext_iff]
  · simp only [reduceCtorEq, false_iff]
    omega

theorem index?_isSome {n x : Nat} : (index? n x).isSome = true ↔ x < n := by
  unfold index?
  split <;> simp [*]

/-! ### Regions (R45, R46, R49) -/

theorem Region.place_val (r : Region) (o : Nat) : (r.place o).val = r.base + o % r.span := by
  cases r <;> rfl

theorem Region.span_pos (r : Region) : 0 < r.span := by
  cases r <;> exact Nat.succ_pos _

/-- The place at an offset below the span is at base plus offset (R49). -/
theorem Region.place_of_lt {r : Region} {o : Nat} (h : o < r.span) {j : Place} (hj : j.val = r.base + o) :
    r.place o = j :=
  Fin.ext (by rw [r.place_val, Nat.mod_eq_of_lt h, hj])

/-- The place lies in the region. -/
def Region.Holds (r : Region) (i : Place) : Prop := r.base ≤ i.val ∧ i.val < r.base + r.span

theorem Region.holds_place (r : Region) (o : Nat) : r.Holds (r.place o) := by
  have := Nat.mod_lt o r.span_pos
  exact ⟨by rw [r.place_val]; omega, by rw [r.place_val]; omega⟩

theorem Region.home_eq {r : Region} {tag : Tag} {home : Place}
    (h : home.val = r.base + (tag.keyCode * 73 % 1024) % r.span) : r.home tag = home :=
  Region.place_of_lt (Nat.mod_lt _ r.span_pos) h

theorem Region.check_of_span {base span : Nat} (h : span ∉ [64, 128, 256, 512]) :
    Region.check base span = .error .badParam := by
  unfold Region.check
  exact if_pos (by simpa using h)

theorem Region.check_of_outside {base span : Nat} (hs : span ∈ [64, 128, 256, 512])
    (h : 1023 < base ∨ 1024 < base + span) : Region.check base span = .error .badParam := by
  simp only [List.mem_cons, List.not_mem_nil, or_false] at hs
  unfold Region.check
  rw [if_neg (by omega), if_pos h]

theorem Region.check_of_misaligned {base span : Nat} (hs : span ∈ [64, 128, 256, 512]) (hb : base ≤ 1023)
    (ht : base + span ≤ 1024) (h : base % span ≠ 0) : Region.check base span = .error .align := by
  simp only [List.mem_cons, List.not_mem_nil, or_false] at hs
  unfold Region.check
  rw [if_neg (by omega), if_neg (by omega), if_pos h]

/-- DIRECTORY SETUP accepts the base and span of a region as that region (R46). -/
theorem Region.check_self (r : Region) : Region.check r.base r.span = .ok r := by
  cases r with
  | span64 i => revert i; decide
  | span128 i => revert i; decide
  | span256 i => revert i; decide
  | span512 i => revert i; decide

/-- A base that is a multiple of the span, and a region that fits, are those of a region (R45). -/
theorem Region.exists_of_aligned {base span : Nat} (hs : span ∈ [64, 128, 256, 512]) (ht : base + span ≤ 1024)
    (h : base % span = 0) : ∃ r : Region, r.base = base ∧ r.span = span := by
  simp only [List.mem_cons, List.not_mem_nil, or_false] at hs
  rcases hs with rfl | rfl | rfl | rfl
  · exact ⟨.span64 ⟨base / 64, by omega⟩, by simp only [Region.base]; omega, rfl⟩
  · exact ⟨.span128 ⟨base / 128, by omega⟩, by simp only [Region.base]; omega, rfl⟩
  · exact ⟨.span256 ⟨base / 256, by omega⟩, by simp only [Region.base]; omega, rfl⟩
  · exact ⟨.span512 ⟨base / 512, by omega⟩, by simp only [Region.base]; omega, rfl⟩

/-! ### Tags of records (3.1, R42) -/

theorem Record.tag?_eq_key {r : Record} {p : Port} {k : Key} : r.tag? = some (.key p k) ↔
    r.tagCue = false ∧ r.tagIndex.toNat = p.val ∧ r.tagKey.toNat = k.val := by
  rw [← index?_eq_some, ← index?_eq_some]
  unfold Record.tag?
  cases r.tagCue with
  | true => by_cases h0 : r.tagKey.toNat = 0 <;> simp [h0]
  | false =>
    cases index? 16 r.tagIndex.toNat <;> cases index? 5 r.tagKey.toNat <;> simp

theorem Record.tag?_eq_cue {r : Record} {c : CircuitIx} : r.tag? = some (.cue c) ↔
    r.tagCue = true ∧ r.tagIndex.toNat = c.val ∧ r.tagKey.toNat = 0 := by
  rw [← index?_eq_some]
  unfold Record.tag?
  cases r.tagCue with
  | true => by_cases h0 : r.tagKey.toNat = 0 <;> simp [h0]
  | false =>
    cases index? 16 r.tagIndex.toNat <;> cases index? 5 r.tagKey.toNat <;> simp

/-- A record's tag is in range: a key's port and key are, or a circuit with key field 0 is (R42). -/
theorem Record.tag?_isSome (r : Record) : r.tag?.isSome = true ↔
    if r.tagCue = true then r.tagIndex.toNat < 24 ∧ r.tagKey.toNat = 0
    else r.tagIndex.toNat < 16 ∧ r.tagKey.toNat < 5 := by
  have hp := @index?_isSome 16 r.tagIndex.toNat
  have hk := @index?_isSome 5 r.tagKey.toNat
  have hc := @index?_isSome 24 r.tagIndex.toNat
  rw [← hp, ← hk, ← hc]
  unfold Record.tag?
  cases r.tagCue with
  | true => by_cases h0 : r.tagKey.toNat = 0 <;> simp [h0]
  | false => cases index? 16 r.tagIndex.toNat <;> cases index? 5 r.tagKey.toNat <;> simp

/-! ### Reads of table RAM (R40, R50, R51) -/

section
variable {m : TableRam} (hm : m.wf)
include hm

theorem TableRam.read_scrub (i : Place) (j : Nat) :
    (m.scrub i).read j = if j = i.val then { m.read j with ecc := .clean } else m.read j := by
  rw [TableRam.scrub, TableRam.read_write hm]
  by_cases h : j = i.val
  · rw [if_pos h.symm, if_pos h, h]
  · rw [if_neg (Ne.symm h), if_neg h]

/-- An error that arises is held in the code of its place; an uncorrectable one is not lost in a one-bit error. -/
theorem TableRam.read_upset (i : Place) (u : Upset) (j : Nat) :
    (m.upset (i, u)).read j = if j = i.val then { m.read j with
      ecc := if u = .uncorrectable ∨ (m.read j).ecc = .uncorrectable then .uncorrectable else .oneBit }
    else m.read j := by
  rw [TableRam.upset, TableRam.read_write hm]
  by_cases h : j = i.val
  · rw [if_pos h.symm, if_pos h, h]
    cases u with
    | oneBit => cases (m.read i.val).ecc <;> rfl
    | uncorrectable => rfl
  · rw [if_neg (Ne.symm h), if_neg h]

/-- Errors change neither a content nor a poison mark. -/
theorem TableRam.read_upsetAll (us : Upsets) (j : Nat) :
    ((m.upsetAll us).read j).content = (m.read j).content
      ∧ ((m.upsetAll us).read j).poisoned = (m.read j).poisoned := by
  induction us generalizing m with
  | nil => exact ⟨rfl, rfl⟩
  | cons u us ih =>
    obtain ⟨hc, hp⟩ := ih (TableRam.upset_wf hm u)
    have upset : ((m.upset u).read j).content = (m.read j).content
        ∧ ((m.upset u).read j).poisoned = (m.read j).poisoned := by
      rw [TableRam.read_upset hm]
      split <;> exact ⟨rfl, rfl⟩
    exact ⟨hc.trans upset.1, hp.trans upset.2⟩

theorem TableRam.read_upsetAll_other {us : Upsets} {j : Nat} (h : ∀ u ∈ us, u.1.val ≠ j) :
    (m.upsetAll us).read j = m.read j := by
  induction us generalizing m with
  | nil => rfl
  | cons u us ih =>
    obtain ⟨hu, hus⟩ := List.forall_mem_cons.1 h
    refine (ih (TableRam.upset_wf hm u) hus).trans ?_
    rw [TableRam.read_upset hm, if_neg (Ne.symm hu)]

/-- The poison mark of one place changes no content and no other mark. -/
theorem TableRam.read_poisoned (i j : Nat) :
    ((m.write i { m.read i with poisoned := true }).read j).content = (m.read j).content
      ∧ ((m.read j).poisoned = true → ((m.write i { m.read i with poisoned := true }).read j).poisoned = true) := by
  rw [TableRam.read_write hm]
  split
  · subst i
    exact ⟨rfl, fun _ => rfl⟩
  · exact ⟨rfl, id⟩

end

/-- What a read of a place that is neither POISONED nor uncorrectable reports (R50). -/
def RecordPlace.reports (x : RecordPlace) (i : Place) : List (FaultKind × Location) :=
  if x.ecc = .oneBit then [(.ramCorrected, .place i)] else []

section
variable {m : TableRam} {i : Place}

theorem TableRam.fetch_of_poisoned (h : (m.read i.val).poisoned = true) : m.fetch i = (.poisoned, m, []) := by
  rw [TableRam.fetch, if_pos h]

theorem TableRam.fetch_of_uncorrectable (hp : (m.read i.val).poisoned = false)
    (he : (m.read i.val).ecc = .uncorrectable) : m.fetch i =
      (.poisoned, m.write i.val { m.read i.val with poisoned := true }, [(.ramPoisoned, .place i)]) := by
  simp only [TableRam.fetch, hp, he, Bool.false_eq_true, if_false]

theorem TableRam.fetch_of_readable (hp : (m.read i.val).poisoned = false)
    (he : (m.read i.val).ecc ≠ .uncorrectable) : m.fetch i =
      (.content (m.read i.val).content (decide ((m.read i.val).ecc = .oneBit)), m, (m.read i.val).reports i) := by
  simp only [TableRam.fetch, hp, RecordPlace.reports, Bool.false_eq_true, if_false]
  cases hc : (m.read i.val).ecc with
  | clean => rfl
  | oneBit => rfl
  | uncorrectable => exact absurd hc he

end

end Sys2Proof.Machine
end

section
/-!
PROOFS, the reading of a chain (R48, R49, R68 to R70): O23. One visit is an equation for each way it can go on; a
reading that goes on does so in the same table RAM, so what each visit keeps holds of the whole reading.
-/

namespace Sys2Proof.Machine

/-! ### One visit -/

/-- A reading that has counted place `i`, its scrub held where the content was corrected (R50, R53, R69). -/
def Reading.seen (a : Reading) (corrected : Bool) (i : Place) : Reading :=
  if corrected then { a with visited := a.visited + 1, scrubs := a.scrubs ++ [i] }
  else { a with visited := a.visited + 1 }

/-- The visit of a place that can be read, its record being VALID (R69). -/
def Reading.visit (a : Reading) (tag : Tag) (scene : Scene) (i : Place) (x : RecordPlace) : Reading :=
  (a.seen (decide (x.ecc = .oneBit)) i).note tag scene i x.content

section
variable (tag : Tag) (region : Region) (scene : Scene) (fuel : Nat) {m : TableRam} {i : Place} (a : Reading)

theorem readChain_of_poisoned (h : (m.read i.val).poisoned = true) : readChain tag region scene fuel m i a =
    ({ a with visited := a.visited + 1, ending := .poisoned i }, m, []) := by
  rw [readChain.eq_def]
  simp only [TableRam.fetch_of_poisoned h]

theorem readChain_of_uncorrectable (hp : (m.read i.val).poisoned = false)
    (he : (m.read i.val).ecc = .uncorrectable) : readChain tag region scene fuel m i a =
      ({ a with visited := a.visited + 1, ending := .poisoned i },
        m.write i.val { m.read i.val with poisoned := true }, [(.ramPoisoned, .place i)]) := by
  rw [readChain.eq_def]
  simp only [TableRam.fetch_of_uncorrectable hp he]

section
variable (hp : (m.read i.val).poisoned = false) (he : (m.read i.val).ecc ≠ .uncorrectable)
include hp he

theorem readChain_of_invalid (hv : (m.read i.val).content.valid = false) : readChain tag region scene fuel m i a =
    ({ a.seen (decide ((m.read i.val).ecc = .oneBit)) i with ending := .invalid i }, m,
      (m.read i.val).reports i) := by
  rw [readChain.eq_def]
  simp only [TableRam.fetch_of_readable hp he, hv, Bool.false_eq_true, if_false]
  rfl

variable (hv : (m.read i.val).content.valid = true)
include hv

theorem readChain_of_end (hn : (m.read i.val).content.endsChain region.span = true) :
    readChain tag region scene fuel m i a =
      ({ a.visit tag scene i (m.read i.val) with ending := .chainEnd }, m, (m.read i.val).reports i) := by
  rw [readChain.eq_def]
  simp only [TableRam.fetch_of_readable hp he, hv, hn, if_true]
  rfl

variable (hn : (m.read i.val).content.endsChain region.span = false)
include hn

theorem readChain_of_limit : readChain tag region scene 0 m i a =
    ({ a.visit tag scene i (m.read i.val) with ending := .chainLimit i }, m,
      (m.read i.val).reports i ++ [(.chainLimit, .place i)]) := by
  rw [readChain.eq_def]
  simp only [TableRam.fetch_of_readable hp he, hv, hn, Bool.false_eq_true, if_true, if_false]
  rfl

theorem readChain_of_next : readChain tag region scene (fuel + 1) m i a =
    let rest := readChain tag region scene fuel m (region.place (m.read i.val).content.next.toNat)
      (a.visit tag scene i (m.read i.val))
    (rest.1, rest.2.1, (m.read i.val).reports i ++ rest.2.2) := by
  rw [readChain.eq_def]
  simp only [TableRam.fetch_of_readable hp he, hv, hn, Bool.false_eq_true, if_true, if_false]
  rfl

end

end

/-- The chain ends at a record whose NEXT is END or not below the span (R49, R69). -/
theorem Record.endsChain_iff (r : Record) (span : Nat) :
    r.endsChain span = true ↔ r.next = 0xFFFF ∨ span ≤ r.next.toNat := by
  simp [Record.endsChain, Record.isLast]

section
variable (a : Reading) (tag : Tag) (scene : Scene) (i : Place) (r : Record)

/-- What noting a valid record makes of a reading (R69). -/
theorem Reading.note_eq : a.note tag scene i r =
    if r.tag? ≠ some tag then { a with lastValid := some i }
    else if r.scenes.getLsbD scene.val = false then
      { a with lastValid := some i, firstUnarmed := a.firstUnarmed <|> some i }
    else if a.hits.length < 4 then { a with lastValid := some i, hits := a.hits ++ [⟨i, r⟩] }
    else { a with
      lastValid := some i, ignored := a.ignored + 1, firstIgnored := a.firstIgnored <|> some i } := by
  unfold Reading.note
  by_cases ht : r.tag? = some tag
  · cases hs : r.scenes.getLsbD scene.val with
    | true => simp [ht, Config.hitLimit]
    | false => simp [ht]
  · simp [ht]

end

/-- A visit counts the place and notes its record (R69). -/
theorem Reading.visit_eq (a : Reading) (tag : Tag) (scene : Scene) (i : Place) (x : RecordPlace) :
    a.visit tag scene i x =
      let seen := a.seen (decide (x.ecc = .oneBit)) i
      let r := x.content
      if r.tag? ≠ some tag then { seen with lastValid := some i }
      else if r.scenes.getLsbD scene.val = false then
        { seen with lastValid := some i, firstUnarmed := a.firstUnarmed <|> some i }
      else if a.hits.length < 4 then { seen with lastValid := some i, hits := a.hits ++ [⟨i, r⟩] }
      else { seen with
        lastValid := some i, ignored := a.ignored + 1, firstIgnored := a.firstIgnored <|> some i } := by
  rw [Reading.visit, Reading.note_eq]
  cases decide (x.ecc = .oneBit) <;> rfl

/-! ### The whole reading -/

/-- What every reading from `home` keeps: at most four hits, others being ignored only then, and each hit an armed
match read in a place of the region that is not POISONED (R68, R69). -/
structure Reading.Sound (m : TableRam) (tag : Tag) (region : Region) (scene : Scene) (home : Place)
    (a : Reading) : Prop where
  home : a.home = home
  few : a.hits.length ≤ 4
  ignored : 0 < a.ignored → a.hits.length = 4
  hits : ∀ h ∈ a.hits, h.content = (m.read h.place.val).content ∧ (m.read h.place.val).poisoned = false
    ∧ h.content.valid = true ∧ h.content.tag? = some tag ∧ h.content.scenes.getLsbD scene.val = true
    ∧ region.Holds h.place

section
variable {m : TableRam} {tag : Tag} {region : Region} {scene : Scene} {home : Place} {a : Reading}

/-- The place count, the scrubs, the notes of places and the ending do not matter to it. -/
theorem Reading.Sound.congr {b : Reading} (h : a.Sound m tag region scene home) (hhome : b.home = a.home)
    (hhits : b.hits = a.hits) (hignored : b.ignored = a.ignored) : b.Sound m tag region scene home :=
  ⟨hhome ▸ h.home, hhits ▸ h.few, hhits ▸ hignored ▸ h.ignored, hhits ▸ h.hits⟩

theorem Reading.Sound.seen (h : a.Sound m tag region scene home) (corrected : Bool) (i : Place) :
    (a.seen corrected i).Sound m tag region scene home := by
  cases corrected <;> exact h.congr rfl rfl rfl

/-- Noting a valid record of the region keeps the reading sound. -/
theorem Reading.Sound.note (h : a.Sound m tag region scene home) {i : Place} (hi : region.Holds i)
    (hp : (m.read i.val).poisoned = false) (hv : (m.read i.val).content.valid = true) :
    (a.note tag scene i (m.read i.val).content).Sound m tag region scene home := by
  have hfew := h.few
  rw [Reading.note_eq]
  by_cases ht : (m.read i.val).content.tag? = some tag
  · rw [if_neg (not_not_intro ht)]
    by_cases hs : (m.read i.val).content.scenes.getLsbD scene.val = false
    · rw [if_pos hs]
      exact h.congr rfl rfl rfl
    · rw [if_neg hs]
      by_cases hl : a.hits.length < 4
      · rw [if_pos hl]
        refine ⟨h.home, ?_, fun h0 => absurd (h.ignored h0) (by omega), List.forall_mem_append.2 ⟨h.hits, ?_⟩⟩
        · rw [List.length_append, List.length_singleton]
          omega
        · exact List.forall_mem_singleton.2 ⟨rfl, hp, hv, ht, Bool.eq_true_of_not_eq_false hs, hi⟩
      · rw [if_neg hl]
        exact ⟨h.home, h.few, fun _ => by dsimp only; omega, h.hits⟩
  · rw [if_pos ht]
    exact h.congr rfl rfl rfl

theorem Reading.seen_visited (a : Reading) (corrected : Bool) (i : Place) :
    (a.seen corrected i).visited = a.visited + 1 := by
  cases corrected <;> rfl

theorem Reading.visit_visited (a : Reading) (tag : Tag) (scene : Scene) (i : Place) (x : RecordPlace) :
    (a.visit tag scene i x).visited = a.visited + 1 := by
  rw [Reading.visit, Reading.note_eq]
  repeat' split
  all_goals exact a.seen_visited _ i

/-- What the reading of a chain comes to: a sound reading of at most `fuel` places more than one, the content of
table RAM untouched and no poison mark cleared. -/
structure ReadsOn (m : TableRam) (tag : Tag) (region : Region) (scene : Scene) (home : Place) (fuel visited : Nat)
    (out : Reading × TableRam × List (FaultKind × Location)) : Prop where
  sound : out.1.Sound m tag region scene home
  more : visited + 1 ≤ out.1.visited
  bound : out.1.visited ≤ visited + fuel + 1
  ram : ∀ j : Nat, (out.2.1.read j).content = (m.read j).content
    ∧ ((m.read j).poisoned = true → (out.2.1.read j).poisoned = true)

/-- A reading that ends at the place it visits, with table RAM as it was. -/
theorem ReadsOn.of_end (h : a.Sound m tag region scene home) {visited : Nat} (hv : a.visited = visited + 1)
    (fuel : Nat) (e : ReadingEnd) (faults : List (FaultKind × Location)) :
    ReadsOn m tag region scene home fuel visited ({ a with ending := e }, m, faults) where
  sound := h.congr rfl rfl rfl
  more := hv.ge
  bound := by dsimp only; omega
  ram := fun _ => ⟨rfl, id⟩

/-- By how the visit of the place ends or goes on; where it goes on, by the fuel (R69, R70). -/
theorem readChain_readsOn (hm : m.wf) (fuel : Nat) {i : Place} (hi : region.Holds i)
    (ha : a.Sound m tag region scene home) :
    ReadsOn m tag region scene home fuel a.visited (readChain tag region scene fuel m i a) := by
  induction fuel using Nat.strongRecOn generalizing i a with | ind fuel ih => ?_
  cases hp : (m.read i.val).poisoned with
  | true =>
    rw [readChain_of_poisoned _ _ _ _ _ hp]
    exact ReadsOn.of_end (ha.seen false i) rfl _ _ _
  | false =>
  by_cases he : (m.read i.val).ecc = .uncorrectable
  · rw [readChain_of_uncorrectable _ _ _ _ _ hp he]
    have counted := ReadsOn.of_end (ha.seen false i) rfl fuel (.poisoned i) []
    exact { counted with ram := TableRam.read_poisoned hm i.val }
  cases hv : (m.read i.val).content.valid with
  | false =>
    rw [readChain_of_invalid _ _ _ _ _ hp he hv]
    exact ReadsOn.of_end (ha.seen _ i) (a.seen_visited _ i) _ _ _
  | true =>
  have visited : (a.visit tag scene i (m.read i.val)).Sound m tag region scene home :=
    (ha.seen _ i).note hi hp hv
  have count := a.visit_visited tag scene i (m.read i.val)
  cases hn : (m.read i.val).content.endsChain region.span with
  | true =>
    rw [readChain_of_end _ _ _ _ _ hp he hv hn]
    exact ReadsOn.of_end visited count _ _ _
  | false =>
  cases fuel with
  | zero =>
    rw [readChain_of_limit _ _ _ _ hp he hv hn]
    exact ReadsOn.of_end visited count _ _ _
  | succ fuel =>
    rw [readChain_of_next _ _ _ _ _ hp he hv hn]
    obtain ⟨sound, more, bound, ram⟩ := ih fuel (Nat.lt_succ_self fuel) (region.holds_place _) visited
    exact ⟨sound, by dsimp only; omega, by dsimp only; omega, ram⟩

end

/-! ### WALK_START -/

/-- A walk that waits for the free port, and that no waiting access goes before, is granted it (R52). -/
theorem exec_walkStart_of_waiting {s : State} {tag : Tag} {retry : Bool} {rest : List KeyLevel}
    (hj : s.walker.job = .waiting tag retry rest) (hi : s.directory.initialising = false)
    (ht : s.directory.turn = .management → s.management.accessWaiting = false) {upsets : Upsets}
    {out : Reading × TableRam × List (FaultKind × Location)}
    (hr : readWalk tag s.directory.region s.directory.scene (s.directory.ram.upsetAll upsets) = out) :
    exec (.walkStart upsets) s =
      .next (((s.setDirectory { s.directory with ram := out.2.1, turn := .either }).setJob
        (.walking ⟨tag, retry, out.1, .read, false, false⟩ rest)).setRequests
          (s.requests ++ out.2.2.map fun f => .fault f.1 f.2)) := by
  have granted : s.walkGranted = true := by
    cases hd : s.directory.turn with
    | management => simp [State.walkGranted, State.portFree, Job.walk?, Job.isWaiting, hj, hi, ht hd]
    | either | walker => simp [State.walkGranted, State.portFree, Job.walk?, Job.isWaiting, hj, hi, hd]
  show execWalkStart upsets s = _
  simp only [execWalkStart, hj, granted, if_true, State.reportAll_eq, hr]
  rfl

theorem Reading.start_sound (m : TableRam) (tag : Tag) (region : Region) (scene : Scene) (home : Place) :
    (Reading.start home).Sound m tag region scene home :=
  ⟨rfl, Nat.zero_le _, fun h => absurd h (Nat.lt_irrefl 0), fun _ h => absurd h List.not_mem_nil⟩

/-- Settles O23: WALK_START by what the reading of the whole chain keeps, a visit by the equation of its case. -/
theorem walkReads : Obligations.WalkReads := by
  refine ⟨fun p k c r => ⟨rfl, rfl, Record.tag?_eq_key, Record.tag?_eq_cue⟩,
    fun s upsets tag retry rest home hj hi hwf ht hhome => ?_, fun tag region scene fuel m i a => ?_⟩
  · have home_eq := Region.home_eq hhome
    have arisen := TableRam.read_upsetAll hwf upsets
    have reads := readChain_readsOn (TableRam.upsetAll_wf hwf upsets) 15
      (home_eq ▸ s.directory.region.holds_place _ : s.directory.region.Holds home)
      (Reading.start_sound (s.directory.ram.upsetAll upsets) tag s.directory.region s.directory.scene home)
    refine ⟨?_, fun i => ⟨(arisen i).1, (arisen i).2, TableRam.read_upsetAll_other hwf⟩, reads.sound.home, reads.more,
      reads.bound, reads.sound.few, reads.sound.ignored, fun h hh => ?_, fun i => ?_⟩
    · exact exec_walkStart_of_waiting hj hi ht (by rw [readWalk, home_eq]; rfl)
    · obtain ⟨hc, hp, hv, htag, hs, hr⟩ := reads.sound.hits h hh
      rw [(arisen _).1] at hc
      rw [(arisen _).2] at hp
      exact ⟨hc, hp, hv, htag, hs, hr⟩
    · obtain ⟨hc, hp⟩ := reads.ram i
      exact ⟨hc.trans (arisen i).1, fun h => hp ((arisen i).2.trans h)⟩
  · intro x r visited poisoned seen faults noted chainEnds
    have seen_eq : a.seen (decide (x.ecc = .oneBit)) i = seen := by
      simp only [Reading.seen, decide_eq_true_eq, seen, visited]
    have noted_eq : a.visit tag scene i x = noted := by
      rw [Reading.visit_eq, seen_eq]
    have ends : x.content.endsChain region.span = true ↔ chainEnds := Record.endsChain_iff _ _
    refine ⟨fun hp => readChain_of_poisoned _ _ _ _ _ hp, fun hp he => readChain_of_uncorrectable _ _ _ _ _ hp he,
      fun hp he => ⟨fun hv => ?_, fun hv hn => ?_, fun hv hn => ⟨?_, fun j hj => ?_⟩⟩⟩
    · rw [readChain_of_invalid _ _ _ _ _ hp he hv, seen_eq]
      rfl
    · rw [readChain_of_end _ _ _ _ _ hp he hv (ends.2 hn), noted_eq]
      rfl
    · rw [readChain_of_limit _ _ _ _ hp he hv (Bool.eq_false_iff.2 fun h => hn (ends.1 h)), noted_eq]
      rfl
    · have hlt : x.content.next.toNat < region.span := Nat.lt_of_not_le fun h => hn (.inr h)
      rw [readChain_of_next _ _ _ _ _ hp he hv (Bool.eq_false_iff.2 fun h => hn (ends.1 h)), noted_eq,
        Region.place_of_lt hlt hj]
      rfl

end Sys2Proof.Machine
end

section
/-!
PROOFS, the accesses of the management engine to the table port (R45 to R47, R50 to R52, R56, R162): O49. An access is
one equation of `State.access` for each of its kinds; its command and the grant only decide when it comes.
-/

namespace Sys2Proof.Machine

/-! ### The grant (R52) -/

section
variable {s : State}

/-- The port is free for an access: no walk is in flight, and no walk that waits goes before it. -/
theorem State.accessGranted_iff : s.accessGranted = true ↔ s.directory.initialising = false
    ∧ s.walker.job.walk? = none ∧ (s.directory.turn = .walker → s.walker.job.isWaiting = false) := by
  unfold State.accessGranted State.portFree
  by_cases ht : s.directory.turn = .walker <;> simp [ht, and_assoc]

theorem State.not_accessGranted (h : s.walker.job.walk? ≠ none
    ∨ (s.directory.turn = .walker ∧ s.walker.job.isWaiting = true)) : ¬ s.accessGranted = true := by
  intro hg
  obtain ⟨-, hw, ht⟩ := State.accessGranted_iff.1 hg
  rcases h with h | ⟨hturn, hwait⟩
  · exact h hw
  · exact absurd (ht hturn) (by rw [hwait]; decide)

/-- The directory as the end of an access leaves it: a walk that waits is next (R52). -/
def State.released (s : State) (d : Directory) : Directory :=
  { d with turn := if s.walker.job.isWaiting then .walker else .either }

/-! ### Accesses -/

section
variable {c : Command} {rest : List Command} (hc : s.management.commands = c :: rest) {upsets : Upsets}
include hc

/-- The access of the command at the head ends with its reply (R52, R160). -/
theorem State.answer_accessEnded (a : Answer) :
    (s.answer a).accessEnded = (s.setDirectory (s.released s.directory)).answered c rest a :=
  congrArg State.accessEnded (s.answer_of_commands hc a)

theorem State.access_setRegion (r : Region) : s.access (.setRegion r) upsets =
    (s.setDirectory (s.released { s.directory with region := r })).answered c rest
      (.ok s.directory.region.bytes) :=
  State.answer_accessEnded (s := s.setDirectory { s.directory with region := r }) hc _

theorem State.access_setScene (n : Scene) : s.access (.setScene n) upsets =
    (s.setDirectory (s.released { s.directory with scene := n })).answered c rest
      (.ok [byte s.directory.scene.val]) :=
  State.answer_accessEnded (s := s.setDirectory { s.directory with scene := n }) hc _

variable {n : Place} {m : TableRam} {faults : List (FaultKind × Location)}

theorem State.access_readRecord_poisoned
    (hf : (s.directory.ram.upsetAll upsets).fetch n = (.poisoned, m, faults)) :
    s.access (.readRecord n) upsets = ((s.setDirectory (s.released { s.directory with ram := m })).setRequests
      (s.requests ++ faults.map fun f => .fault f.1 f.2)).answered c rest (.bare .poisoned) := by
  simp only [State.access, State.readPlace, hf, State.reportAll_eq]
  exact State.answer_accessEnded (s := (s.setDirectory { s.directory with
    ram := m }).setRequests (s.requests ++ _)) hc _

theorem State.access_readRecord_content {r : Record} {corrected : Bool}
    (hf : (s.directory.ram.upsetAll upsets).fetch n = (.content r corrected, m, faults)) :
    s.access (.readRecord n) upsets = ((s.setDirectory (s.released { s.directory with
        ram := if corrected then m.scrub n else m })).setRequests
      (s.requests ++ faults.map fun f => .fault f.1 f.2)).answered c rest
        (.ok (r.readBytes s.directory.region n)) := by
  simp only [State.access, State.readPlace, hf, State.reportAll_eq]
  exact State.answer_accessEnded (s := (s.setDirectory { s.directory with
    ram := if corrected then m.scrub n else m }).setRequests (s.requests ++ _)) hc _

end

theorem State.askPort_of_granted (h : s.accessGranted = true) (a : Access) (upsets : Upsets) :
    s.askPort a upsets = s.access a upsets := if_pos h

theorem State.askPort_of_held (h : ¬ s.accessGranted = true) (a : Access) (upsets : Upsets) :
    s.askPort a upsets = s.setManagement { s.management with execution := .access a } := if_neg h

/-! ### The commands and the grant -/

section
variable {c : Command} {rest : List Command}

theorem directorySetup_step (h : s.canRun 0x30 [.unlocked] c rest) :
    exec .directorySetup s = .next (directorySetup c.params s) :=
  congrArg Host.Outcome.next (h.begin (by decide) _)

theorem selectScene_step (h : s.canRun 0x33 [.unlocked, .locked] c rest) :
    exec .selectScene s = .next (selectScene c.params s) :=
  congrArg Host.Outcome.next (h.begin (by decide) _)

theorem readRecord_step (h : s.canRun 0x32 anyLock c rest) (upsets : Upsets) :
    exec (.readRecord upsets) s = .next (readRecord upsets c.params s) :=
  congrArg Host.Outcome.next (h.begin (by decide) _)

end

section
variable {ps : List Byte}

theorem directorySetup_of_region {r : Region} (hb : (wordAt ps 0).toNat = r.base)
    (hs : (wordAt ps 2).toNat = r.span) : directorySetup ps s = s.askPort (.setRegion r) [] := by
  simp only [directorySetup, hb, hs, Region.check_self]

theorem directorySetup_of_error {status : Status}
    (h : Region.check (wordAt ps 0).toNat (wordAt ps 2).toNat = .error status) :
    directorySetup ps s = s.answer (.bare status) := by
  simp only [directorySetup, h]

theorem selectScene_of_eq {n : Scene} (h : (byteAt ps 0).toNat = n.val) :
    selectScene ps s = s.askPort (.setScene n) [] := by
  simp only [selectScene, index?_of_eq h]

theorem selectScene_of_lt (h : 7 < (byteAt ps 0).toNat) : selectScene ps s = s.answer (.bare .badParam) := by
  simp only [selectScene, index?_of_le h]

theorem readRecord_of_eq {n : Place} (h : (wordAt ps 0).toNat = n.val) (upsets : Upsets) :
    readRecord upsets ps s = s.askPort (.readRecord n) upsets := by
  simp only [readRecord, index?_of_eq h]

theorem readRecord_of_lt (h : 1023 < (wordAt ps 0).toNat) (upsets : Upsets) :
    readRecord upsets ps s = s.answer (.bare .badParam) := by
  simp only [readRecord, index?_of_le h]

end

theorem exec_tablePortGrant_of_access {a : Access} (h : s.management.execution = .access a) (upsets : Upsets) :
    exec (.tablePortGrant upsets) s = .next (if s.accessGranted then s.access a upsets else s) := by
  show execTablePortGrant upsets s = _
  simp only [execTablePortGrant, h]

end

/-- Settles O49: `carried` is the equation of the access, and each command and the grant come to that access or to the
wait for the port. -/
theorem tablePortCommands : Obligations.TablePortCommands := by
  refine ⟨fun m i x u j hm => ?_, fun a b c d => ⟨rfl, rfl, rfl, rfl, rfl, rfl, rfl, rfl⟩,
    fun base span => ⟨Region.check_of_span, fun hs => ⟨Region.check_of_outside hs, Region.check_of_misaligned hs,
      fun ht ha => ?_⟩⟩, ?_⟩
  · refine ⟨TableRam.write_wf hm i.isLt x, ?_, TableRam.read_scrub hm i j, TableRam.read_upset hm i u j, rfl,
      fun _ => rfl⟩
    simp only [TableRam.read_write hm, eq_comm]
  · obtain ⟨r, rfl, rfl⟩ := Region.exists_of_aligned hs ht ha
    exact ⟨r, r.check_self, rfl, rfl⟩
  intro s c rest upsets ended carried asks
  have ended_eq : ∀ d, s.released d = ended d := by
    intro d
    simp only [State.released, ended]
    cases s.walker.job <;> rfl
  have carries : ∀ a i, s.management.commands = c :: rest → exec i s = .next (s.access a upsets) → carried a i := by
    intro a i hc hi
    refine ⟨?_, ?_, ?_⟩
    · rintro r rfl
      rw [hi, State.access_setRegion hc, ended_eq]
      rfl
    · rintro n rfl
      rw [hi, State.access_setScene hc, ended_eq]
      rfl
    · rintro n rfl m x inside standing result
      have bytes : ∀ r : Record, r.readBytes s.directory.region n = r.encode ++ [standing] := by
        intro r
        simp only [standing, inside]
        cases s.directory.region <;> rfl
      simp only [result, hi]
      refine ⟨fun hp => ?_, fun hp he => ?_, fun hp he => ?_, fun hp he => ?_⟩
      · rw [State.access_readRecord_poisoned hc (TableRam.fetch_of_poisoned hp), ended_eq]
        rfl
      · rw [State.access_readRecord_content hc (TableRam.fetch_of_readable hp (by rw [he]; decide)), ended_eq, bytes,
          RecordPlace.reports, he]
        rfl
      · rw [State.access_readRecord_content hc (TableRam.fetch_of_readable hp (by rw [he]; decide)), ended_eq, bytes,
          RecordPlace.reports, he]
        rfl
      · rw [State.access_readRecord_poisoned hc (TableRam.fetch_of_uncorrectable hp he), ended_eq]
        rfl
  have ask : ∀ a i, s.management.commands = c :: rest → s.directory.initialising = false →
      exec i s = .next (s.askPort a upsets) → asks i a := by
    intro a i hc h0 hi
    refine ⟨fun hw ht => carries a i hc ?_, fun hh => ?_⟩
    · rw [hi, State.askPort_of_granted (State.accessGranted_iff.2 ⟨h0, hw, ht⟩)]
    · rw [hi, State.askPort_of_held (State.not_accessGranted hh)]
  refine ⟨fun h hu => ⟨fun r hb hs => ?_, fun status he => ?_⟩, fun h hu => ⟨fun n hn => ?_, fun hlt => ?_⟩,
    fun h => ⟨fun n hn => ?_, fun hlt => ?_⟩, fun a ha hc h0 => ⟨fun hw ht => ?_, fun hh => ?_⟩⟩
  · exact ask _ _ h.1 h.2.2.1 (by rw [directorySetup_step h, directorySetup_of_region hb hs, hu])
  · rw [directorySetup_step h, directorySetup_of_error he, h.answer rfl]
    rfl
  · exact ask _ _ h.1 h.2.2.1 (by rw [selectScene_step h, selectScene_of_eq hn, hu])
  · rw [selectScene_step h, selectScene_of_lt hlt, h.answer rfl]
    rfl
  · exact ask _ _ h.1 h.2.2.1 (by rw [readRecord_step h, readRecord_of_eq hn])
  · rw [readRecord_step h, readRecord_of_lt hlt, h.answer rfl]
    rfl
  · refine carries a _ hc ?_
    rw [exec_tablePortGrant_of_access ha, if_pos (State.accessGranted_iff.2 ⟨h0, hw, ht⟩)]
  · rw [exec_tablePortGrant_of_access ha, if_neg (State.not_accessGranted hh)]

end Sys2Proof.Machine
end

section
/-!
PROOFS, loads (R42 to R44, R166 to R169): O50. The checks of a record one by one, and what the opening of a load, the
writing of one record and the timer do.
-/

namespace Sys2Proof.Machine

/-! ### The checks of a record (R42) -/

/-- An endpoint byte by its kind and index, as numbers. -/
theorem Endpoint.decode_eq (b : Byte) : Endpoint.decode b =
    if b.toNat / 64 = 0 then (index? 16 (b.toNat % 64)).map .port
    else if b.toNat / 64 = 1 then (index? 48 (b.toNat % 64)).map .lane
    else if b.toNat / 64 = 2 then (index? 12 (b.toNat % 64)).map .channel
    else none := by
  have index : (b.extractLsb' 0 6).toNat = b.toNat % 64 := by
    rw [BitVec.extractLsb'_toNat, Nat.shiftRight_zero]
  have kind : (b.extractLsb' 6 2).toNat = b.toNat / 64 := by
    rw [BitVec.extractLsb'_toNat, Nat.shiftRight_eq_div_pow]
    exact Nat.mod_eq_of_lt (by have := b.isLt; omega)
  simp only [Endpoint.decode, index, kind]
  split
  all_goals simp_all

theorem Endpoint.decode_isSome (b : Byte) : (Endpoint.decode b).isSome = true ↔
    (b.toNat / 64 = 0 ∧ b.toNat % 64 < 16) ∨ (b.toNat / 64 = 1 ∧ b.toNat % 64 < 48)
      ∨ (b.toNat / 64 = 2 ∧ b.toNat % 64 < 12) := by
  rw [Endpoint.decode_eq]
  repeat' split
  all_goals simp [index?_isSome, *]

/-- A test that gives the same on every endpoint of a kind asks only whether the index is in range. -/
theorem any_map_index? {n x : Nat} {f : Fin n → Endpoint} {test : Endpoint → Bool} {v : Bool}
    (h : ∀ i, test (f i) = v) : ((index? n x).map f).any test = true ↔ v = true ∧ x < n := by
  rw [← index?_isSome (n := n)]
  cases index? n x <;> simp [h]

theorem Endpoint.decode_isPort (b : Byte) :
    (Endpoint.decode b).any Endpoint.isPort = true ↔ b.toNat / 64 = 0 ∧ b.toNat % 64 < 16 := by
  rw [Endpoint.decode_eq]
  repeat' split
  · rw [any_map_index? (v := true) fun _ => rfl]
    simp [*]
  · rw [any_map_index? (v := false) fun _ => rfl]
    simp [*]
  · rw [any_map_index? (v := false) fun _ => rfl]
    simp [*]
  · simp [*]

theorem Endpoint.decode_isChannel (b : Byte) :
    (Endpoint.decode b).any Endpoint.isChannel = true ↔ b.toNat / 64 = 2 ∧ b.toNat % 64 < 12 := by
  rw [Endpoint.decode_eq]
  repeat' split
  · rw [any_map_index? (v := false) fun _ => rfl]
    simp [*]
  · rw [any_map_index? (v := false) fun _ => rfl]
    simp [*]
  · rw [any_map_index? (v := true) fun _ => rfl]
    simp [*]
  · simp [*]

/-- A known endpoint is a port, or a channel, by its kind alone. -/
theorem Endpoint.isPort_of_known {b : Byte} (h : (Endpoint.decode b).isSome = true) :
    (Endpoint.decode b).any Endpoint.isPort = true ↔ b.toNat / 64 = 0 := by
  rw [Endpoint.decode_isSome] at h
  rw [Endpoint.decode_isPort]
  omega

theorem Endpoint.isChannel_of_known {b : Byte} (h : (Endpoint.decode b).isSome = true) :
    (Endpoint.decode b).any Endpoint.isChannel = true ↔ b.toNat / 64 = 2 := by
  rw [Endpoint.decode_isSome] at h
  rw [Endpoint.decode_isChannel]
  omega

theorem KeyMode.decode_isSome (mode : BitVec 2) : (KeyMode.decode mode).isSome = true ↔ mode.toNat < 3 := by
  revert mode
  decide

/-- The checks of R42, each as a statement. -/
theorem Record.accepted_iff (r : Record) (span : Nat) : r.accepted span = true ↔
    r.tag?.isSome = true ∧ (if r.tagCue = true then r.cls.toNat = 4 else r.cls.toNat ≤ 3)
    ∧ (r.cls.toNat = 3 → (Endpoint.decode r.dest).any Endpoint.isPort = true)
    ∧ (Endpoint.decode r.source).isSome = true ∧ (Endpoint.decode r.dest).isSome = true
    ∧ ¬ ((Endpoint.decode r.source).any Endpoint.isChannel = true
        ∧ (Endpoint.decode r.dest).any Endpoint.isChannel = true)
    ∧ (KeyMode.decode r.mode).isSome = true ∧ (r.next = 0xFFFF ∨ r.next.toNat < span) := by
  have cls : (if r.tagCue = true then r.cls.toNat == 4 else decide (r.cls.toNat ≤ callCode)) = true ↔
      if r.tagCue = true then r.cls.toNat = 4 else r.cls.toNat ≤ 3 := by
    cases r.tagCue with
    | true => exact beq_iff_eq
    | false => exact decide_eq_true_iff
  have call : (r.cls.toNat != callCode || (Endpoint.decode r.dest).any Endpoint.isPort) = true ↔
      (r.cls.toNat = 3 → (Endpoint.decode r.dest).any Endpoint.isPort = true) := by
    by_cases h : r.cls.toNat = 3 <;> simp [h, callCode]
  have channels : ∀ a b : Bool, (!(a && b)) = true ↔ ¬ (a = true ∧ b = true) := by decide
  have next : (r.isLast || decide (r.next.toNat < span)) = true ↔ r.next = 0xFFFF ∨ r.next.toNat < span := by
    simp [Record.isLast]
  unfold Record.accepted
  simp only [Bool.and_eq_true, cls, call, channels, next, and_assoc]

/-- The tag is in range and the class is one that it may carry (R42). -/
theorem Record.tag_and_class_iff (r : Record) :
    (r.tag?.isSome = true ∧ if r.tagCue = true then r.cls.toNat = 4 else r.cls.toNat ≤ 3) ↔
      (r.tagCue = false → r.tagIndex.toNat < 16 ∧ r.tagKey.toNat < 5 ∧ r.cls.toNat ≤ 3)
      ∧ (r.tagCue = true → r.tagIndex.toNat < 24 ∧ r.tagKey.toNat = 0 ∧ r.cls.toNat = 4) := by
  rw [Record.tag?_isSome]
  cases r.tagCue with
  | true => simp only [if_true, reduceCtorEq, false_imp_iff, true_imp_iff, true_and, and_assoc]
  | false => simp only [Bool.false_eq_true, if_false, false_imp_iff, true_imp_iff, and_true, and_assoc]

/-! ### WRITE RECORDS (R166) -/

section
variable {s : State} {c : Command} {rest : List Command}

theorem writeRecords_bad {ps : List Byte} (h : 1023 < (wordAt ps 0).toNat ∨ (byteAt ps 2).toNat = 0
    ∨ 64 < (byteAt ps 2).toNat ∨ 1024 < (wordAt ps 0).toNat + (byteAt ps 2).toNat) :
    writeRecords ps s = s.answer (.bare .badParam) := if_pos h

theorem writeRecords_good {ps : List Byte} (h : ¬ (1023 < (wordAt ps 0).toNat ∨ (byteAt ps 2).toNat = 0
    ∨ 64 < (byteAt ps 2).toNat ∨ 1024 < (wordAt ps 0).toNat + (byteAt ps 2).toNat)) :
    writeRecords ps s = s.execute (.load ⟨(wordAt ps 0).toNat, (byteAt ps 2).toNat, (byteAt ps 2).toNat, 0, [],
      false, ⟨s.trunk.clock + 1600, false⟩⟩) := if_neg h

theorem writeRecords_step (h : s.canRun 0x31 [.unlocked] c rest) :
    exec .writeRecords s = .next (writeRecords c.params s) :=
  congrArg Host.Outcome.next (h.begin (by decide) _)

/-! ### The records and the timer of a load (R43, R44, R167 to R169) -/

/-- The reply that closes a load (R168): remaining count and stop index, and no CLAMPED mark but with DONE. -/
theorem Load.answer_of_not_done (l : Load) {status : Status} (h : (status == .done) = false) : l.answer status =
    ⟨status, false, byte (l.count - l.written) :: bytes16 (l.start + l.written)⟩ := by
  rw [Load.answer, h, Bool.and_false]

theorem Load.answer_done (l : Load) : l.answer .done =
    ⟨.done, l.clamped, byte (l.count - l.written) :: bytes16 (l.start + l.written)⟩ := by
  rw [Load.answer, beq_self_eq_true, Bool.and_true]

theorem State.closeLoad_of_commands (hc : s.management.commands = c :: rest) (l : Load) (status : Status) :
    s.closeLoad l status = s.answered c rest (l.answer status) := s.answer_of_commands hc _

variable {l : Load} {r : Record} {more : List Record}

theorem State.writeRecord_rejected (hv : r.valid = true) (ha : r.accepted s.directory.region.span = false) :
    s.writeRecord l r more = s.closeLoad l .badRecord := by
  rw [State.writeRecord, hv, ha]
  rfl

/-- Table RAM and the port when a record has been stored at the pointer (R44, R52). -/
def State.recordStored (s : State) (l : Load) (r : Record) : State :=
  s.setDirectory (s.released { s.directory with
    ram := s.directory.ram.write (l.start + l.written) ⟨r.stored, .clean, false⟩ })

/-- The load with its oldest waiting record stored (R43, R44). -/
def Load.advance (l : Load) (r : Record) (more : List Record) : Load :=
  { l with written := l.written + 1, waiting := more, clamped := l.clamped || r.overGain }

/-- A record that is stored counts as written; with the last of them the load closes (R44, R168). -/
theorem State.writeRecord_stored (hc : s.management.commands = c :: rest)
    (h : r.valid = false ∨ r.accepted s.directory.region.span = true) :
    (s.writeRecord l r more).accessEnded =
      if l.written + 1 = l.count then (s.recordStored l r).answered c rest ((l.advance r more).answer .done)
      else (s.recordStored l r).setManagement { s.management with execution := .load (l.advance r more) } := by
  have passes : ¬ (r.valid && !r.accepted s.directory.region.span) = true := by
    rcases h with h | h <;> simp [h]
  unfold State.writeRecord
  rw [if_neg passes]
  dsimp only
  by_cases hlast : l.written + 1 = l.count
  · rw [if_pos hlast, if_pos hlast, State.closeLoad]
    exact State.answer_accessEnded (s := s.setDirectory { s.directory with
      ram := s.directory.ram.write (l.start + l.written) ⟨r.stored, .clean, false⟩ }) hc _
  · rw [if_neg hlast, if_neg hlast]
    rfl

theorem exec_recordWrite_of_waiting (hl : s.management.execution = .load l) (hw : l.waiting = r :: more)
    (hg : s.accessGranted = true) : exec .recordWrite s = .next (s.writeRecord l r more).accessEnded := by
  show execRecordWrite s = _
  simp only [execRecordWrite, hl, hw, hg, if_true]

theorem exec_loadTimerExpiry_of_load (hl : s.management.execution = .load l) : exec .loadTimerExpiry s =
    .next (if l.deadline.reached ∧ l.expected ≠ 0 then (s.closeLoad l .timeout).report .loadTimeout .nowhere
      else s) := by
  show execLoadTimerExpiry s = _
  simp only [execLoadTimerExpiry, hl]

end

/-- Settles O50: the checks of a record by `Record.accepted_iff`, a load by the equations of its commands. -/
theorem loads : Obligations.Loads := by
  refine ⟨fun r region => ?_, fun s c rest h => ?_, fun s c rest l hl hc => ?_⟩
  · intro kind known
    rw [Record.accepted_iff]
    constructor
    · rintro ⟨htag, hcls, hcall, hs, hd, hch, hm, hn⟩
      obtain ⟨hkey, hcue⟩ := r.tag_and_class_iff.1 ⟨htag, hcls⟩
      exact ⟨hkey, hcue, fun h => (Endpoint.isPort_of_known hd).1 (hcall h), (Endpoint.decode_isSome _).1 hs,
        (Endpoint.decode_isSome _).1 hd, fun ⟨h, h'⟩ => hch ⟨(Endpoint.isChannel_of_known hs).2 h,
          (Endpoint.isChannel_of_known hd).2 h'⟩, (KeyMode.decode_isSome _).1 hm, hn⟩
    · rintro ⟨hkey, hcue, hcall, hs, hd, hch, hm, hn⟩
      obtain ⟨htag, hcls⟩ := r.tag_and_class_iff.2 ⟨hkey, hcue⟩
      have hs := (Endpoint.decode_isSome _).2 hs
      have hd := (Endpoint.decode_isSome _).2 hd
      exact ⟨htag, hcls, fun h => (Endpoint.isPort_of_known hd).2 (hcall h), hs, hd,
        fun ⟨h, h'⟩ => hch ⟨(Endpoint.isChannel_of_known hs).1 h, (Endpoint.isChannel_of_known hd).1 h'⟩,
        (KeyMode.decode_isSome _).2 hm, hn⟩
  · intro start count
    rw [writeRecords_step h]
    refine ⟨fun hbad => ?_, fun h1 h2 h3 h4 => ?_⟩
    · rw [writeRecords_bad hbad, h.answer rfl]
      rfl
    · rw [writeRecords_good (by omega)]
      rfl
  · intro closed
    refine ⟨fun hr he => ?_, fun hn => ?_, ?_⟩
    · rw [exec_loadTimerExpiry_of_load hl, if_pos ⟨hr, by omega⟩, State.closeLoad_of_commands hc,
        Load.answer_of_not_done _ rfl]
      rfl
    · rw [exec_loadTimerExpiry_of_load hl, if_neg]
      rintro ⟨hr, he⟩
      rcases hn with hn | hn
      · rw [hn] at hr
        cases hr
      · exact he hn
    · intro r more hw hi hwalk ht ended tooLoud stored l' u
      rw [exec_recordWrite_of_waiting hl hw (State.accessGranted_iff.2 ⟨hi, hwalk, ht⟩)]
      have ended_eq : ∀ d, s.released d = ended d := by
        intro d
        simp only [State.released, ended]
        cases s.walker.job <;> rfl
      refine ⟨fun hv ha => ?_, fun hs => ?_⟩
      · rw [State.writeRecord_rejected hv ha, State.closeLoad, State.answer_accessEnded hc, ended_eq,
          Load.answer_of_not_done _ rfl]
      · rw [State.writeRecord_stored hc hs, State.recordStored, ended_eq]
        refine ⟨fun hlast => ?_, fun hlast => ?_⟩
        · rw [if_pos hlast, Load.answer_done]
          rfl
        · rw [if_neg hlast]
          rfl

end Sys2Proof.Machine
end

section
/-!
PROOFS, the end of RAM initialisation (R40, R55) and the end of a walk that may not act (R53, R71): O3 and O24.
-/

namespace Sys2Proof.Machine

/-- Settles O3: the emptied list reads the initial value everywhere. -/
theorem ramInitialisationEnds : Obligations.RamInitialisationEnds := by
  intro s h
  refine ⟨{ s.directory with ram := [], initialising := false }, ?_, fun _ => ⟨rfl, rfl, rfl⟩, rfl, rfl, rfl, rfl⟩
  exact congrArg Host.Outcome.next (if_pos h)

theorem Management.accessWaiting_iff (m : Management) : m.accessWaiting = true ↔
    (∃ a, m.execution = .access a) ∨ ∃ l, m.execution = .load l ∧ l.waiting ≠ [] := by
  unfold Management.accessWaiting
  cases m.execution with
  | access a => simp
  | load l => simp
  | none | softReset _ => simp

/-- The decision of a walk waits for the removals of its port, or of its circuit (R71, R96, R131). -/
theorem State.decisionHeld_iff (s : State) (tag : Tag) : s.decisionHeld tag = true ↔
    (∃ p k, tag = .key p k ∧ (Request.removePortKeys p ∈ s.requests ∨ Request.portRowReset p ∈ s.requests))
      ∨ ∃ c, tag = .cue c ∧ Request.removeCircuit c ∈ s.requests := by
  cases tag <;> simp [State.decisionHeld]

section
variable {s : State} {w : Walk}

/-- The walk of a key acts where it is not marked, its port is UP and a RETRY finds the key MISSED or REFUSED (R71). -/
theorem State.walkActs_key_iff {p : Port} {k : Key} (ht : w.tag = .key p k) : s.walkActs w = true ↔
    w.suppressed = false ∧ s.ports[p].link = .up
      ∧ (w.retry = true → (s.entry p k).state = .missed ∨ (s.entry p k).state = .refused) := by
  unfold State.walkActs
  rw [ht]
  cases w.retry <;> simp [KeyEntry.failed]

/-- The walk of a circuit acts where it is not marked and the circuit is not IDLE (R71). -/
theorem State.walkActs_cue_iff {c : CircuitIx} (ht : w.tag = .cue c) : s.walkActs w = true ↔
    w.suppressed = false ∧ s.circuits[c].state ≠ .idle := by
  unfold State.walkActs
  rw [ht]
  simp

theorem State.not_walkActs
    (hkey : ∀ p k, w.tag = .key p k → w.suppressed = true ∨ s.ports[p].link ≠ .up
      ∨ w.retry = true ∧ (s.entry p k).state ≠ .missed ∧ (s.entry p k).state ≠ .refused)
    (hcue : ∀ c, w.tag = .cue c → w.suppressed = true ∨ s.circuits[c].state = .idle) : ¬ s.walkActs w = true := by
  intro ha
  cases ht : w.tag with
  | key p k =>
    obtain ⟨hs, hup, hretry⟩ := (State.walkActs_key_iff ht).1 ha
    rcases hkey p k ht with h | h | ⟨hr, hm, hf⟩
    · exact Bool.eq_false_iff.1 hs h
    · exact h hup
    · exact (hretry hr).elim hm hf
  | cue c =>
    obtain ⟨hs, hi⟩ := (State.walkActs_cue_iff ht).1 ha
    exact (hcue c ht).elim (Bool.eq_false_iff.1 hs) hi

end

theorem exec_walkEnd_of_not_acts {s : State} {w : Walk} {rest : List KeyLevel} (hj : s.walker.job = .walking w rest)
    (hp : w.phase = .read) (hd : ¬ s.decisionHeld w.tag = true) (ha : ¬ s.walkActs w = true) :
    exec .walkEnd s = .next (s.endWalk w rest) := by
  show execWalkEnd s = _
  simp only [execWalkEnd, hj, hp, if_neg hd, if_neg ha]

/-- Settles O24: the mark by `State.suppress_cases`, the end of the walk by its decision. -/
theorem walkSuppressed : Obligations.WalkSuppressed := by
  refine ⟨fun s these => ⟨fun w rest hj hp ht => ?_, fun hn => ?_⟩, fun t p => Tag.ofPort_iff,
    Management.accessWaiting_iff, fun s w rest => rfl, fun s tag => ?_, fun s w rest hj hp hkey hcue => ?_⟩
  · rcases s.suppress_cases these with ⟨w', rest', hj', -, -, e⟩ | ⟨hn, -⟩
    · cases hj.symm.trans hj'
      exact e
    · exact absurd ht (by rw [hn w rest hj hp]; decide)
  · rcases s.suppress_cases these with ⟨w, rest, hj, hp, ht, -⟩ | ⟨-, e⟩
    · exact absurd ht (by rw [hn w rest hj hp]; decide)
    · exact e
  · rw [State.decisionHeld_iff]
    cases tag <;> simp
  · refine exec_walkEnd_of_not_acts hj hp (fun hd => ?_)
      (State.not_walkActs (fun p k ht => (hkey p k ht).2.2) fun c ht => (hcue c ht).2)
    rcases (s.decisionHeld_iff _).1 hd with ⟨p, k, ht, hr | hr⟩ | ⟨c, ht, hr⟩
    · exact (hkey p k ht).1 hr
    · exact (hkey p k ht).2.1 hr
    · exact (hcue c ht).1 hr

end Sys2Proof.Machine
end

section
/-!
PROOFS, what can happen beside the queues and the log. Most operations are calm: they leave the command queue, the
reply queue, what the command at the head is doing, the show lock and RAM initialisation as they are, and let the key
event queue, the notice queue, the fault log and the cue list change within their bounds.
-/

namespace Sys2Proof.Machine

/-- A calm step. -/
structure State.Calm (s t : State) : Prop where
  commands : t.management.commands = s.management.commands
  replies : t.management.replies = s.management.replies
  execution : t.management.execution = s.management.execution
  lock : t.management.lock = s.management.lock
  initialising : t.directory.initialising = s.directory.initialising
  events : s.walker.queue.length ≤ 32 → t.walker.queue.length ≤ 32
  notices : s.management.notices.length ≤ 16 → t.management.notices.length ≤ 16
  log : s.faultLog.sound → t.faultLog.sound
  list : s.cueList.sound → t.cueList.sound

namespace State.Calm

variable {s t u : State}

theorem trans (h : s.Calm t) (h' : t.Calm u) : s.Calm u where
  commands := h'.commands.trans h.commands
  replies := h'.replies.trans h.replies
  execution := h'.execution.trans h.execution
  lock := h'.lock.trans h.lock
  initialising := h'.initialising.trans h.initialising
  events := h'.events ∘ h.events
  notices := h'.notices ∘ h.notices
  log := h'.log ∘ h.log
  list := h'.list ∘ h.list

theorem refl (s : State) : s.Calm s := ⟨rfl, rfl, rfl, rfl, rfl, id, id, id, id⟩

/-! ### Fields that are not spoken of -/

theorem setTrunk (h : s.Calm t) (x : TrunkPort) : s.Calm (t.setTrunk x) := { h with }
theorem setPorts (h : s.Calm t) (x : Vector StationPort 16) : s.Calm (t.setPorts x) := { h with }
theorem setPort (h : s.Calm t) (p : Port) (x : StationPort) : s.Calm (t.setPort p x) := { h with }
theorem setXps (h : s.Calm t) (x : CrosspointSet) : s.Calm (t.setXps x) := { h with }
theorem setCircuits (h : s.Calm t) (x : Vector Circuit 24) : s.Calm (t.setCircuits x) := { h with }
theorem setCircuit (h : s.Calm t) (c : CircuitIx) (x : Circuit) : s.Calm (t.setCircuit c x) := { h with }
theorem setRequests (h : s.Calm t) (x : List Request) : s.Calm (t.setRequests x) := { h with }
theorem hand (h : s.Calm t) (r : Request) : s.Calm (t.hand r) := { h with }
theorem report (h : s.Calm t) (kind : FaultKind) (loc : Location) : s.Calm (t.report kind loc) := { h with }
theorem setEntry (h : s.Calm t) (p : Port) (k : Key) (e : KeyEntry) : s.Calm (t.setEntry p k e) := { h with }
theorem setJob (h : s.Calm t) (j : Job) : s.Calm (t.setJob j) := { h with }
theorem accessEnded (h : s.Calm t) : s.Calm t.accessEnded := { h with }

/-! ### Fields that stay within their bounds -/

theorem setDirectory (h : s.Calm t) (d : Directory) (hd : d.initialising = t.directory.initialising) :
    s.Calm (t.setDirectory d) := { h with initialising := hd.trans h.initialising }

theorem setWalker (h : s.Calm t) (w : Walker) (hw : w.queue.length ≤ t.walker.queue.length) :
    s.Calm (t.setWalker w) := { h with events := fun hs => Nat.le_trans hw (h.events hs) }

theorem setFaultLog (h : s.Calm t) (x : FaultLog) (hx : t.faultLog.sound → x.sound) : s.Calm (t.setFaultLog x) :=
  { h with log := hx ∘ h.log }

theorem setCueList (h : s.Calm t) (x : CueList) (hx : t.cueList.sound → x.sound) : s.Calm (t.setCueList x) :=
  { h with list := hx ∘ h.list }

theorem enqueue (h : s.Calm t) (e : KeyEvent) (hq : t.walker.queue.length < 32) : s.Calm (t.enqueue e) := by
  have room : (t.enqueue e).walker.queue.length ≤ 32 := by
    simp only [State.enqueue_walker, List.length_append, List.length_singleton]
    exact hq
  exact { h with events := fun _ => room }

theorem offer (h : s.Calm t) (body : NoticeBody) : s.Calm (t.offer body) := by
  rcases t.offer_cases body with ⟨hn, e⟩ | ⟨-, e⟩ <;> rw [e]
  · exact { h with
      notices := fun _ => by
        simp only [State.setManagement_management, List.length_append, List.length_singleton]
        exact hn }
  · exact { h with }

/-! ### Operations that the blocks share -/

theorem offers (h : s.Calm t) (bodies : List NoticeBody) : s.Calm (bodies.foldl State.offer t) := by
  induction bodies generalizing t with
  | nil => exact h
  | cons b rest ih => exact ih (h.offer b)

theorem reportAll (h : s.Calm t) (faults : List (FaultKind × Location)) : s.Calm (t.reportAll faults) := by
  rw [State.reportAll_eq]
  exact h.setRequests _

theorem foldl_hand (h : s.Calm t) (rs : List Request) : s.Calm (rs.foldl State.hand t) := by
  rw [State.foldl_hand]
  exact h.setRequests _

theorem take (h : s.Calm t) {r : Request} {effect : State → State} (he : ∀ u : State, u.Calm (effect u)) :
    s.Calm (t.take r effect) := by
  rcases t.take_cases r effect with ⟨-, e⟩ | ⟨-, e⟩ <;> rw [e]
  · exact (h.setRequests _).trans (he _)
  · exact h

theorem suppress (h : s.Calm t) (these : Tag → Bool) : s.Calm (t.suppress these) := by
  rcases t.suppress_cases these with ⟨_, _, -, -, -, e⟩ | ⟨-, e⟩ <;> rw [e]
  · exact h.setJob _
  · exact h

theorem postCueOpen (h : s.Calm t) (c : CircuitIx) : s.Calm (t.postCueOpen c) := by
  rcases t.postCueOpen_cases c with ⟨hq, e⟩ | ⟨-, e⟩ <;> rw [e]
  · exact h.enqueue _ hq
  · exact h.report _ _

/-! ### The crosspoint set -/

theorem install (h : s.Calm t) (r : Install) : s.Calm (t.install r).1 := by
  rcases t.install_cases r with ⟨-, -, e⟩ | ⟨-, ⟨i, c, -, e⟩ | ⟨-, ⟨i, -, e⟩ | ⟨-, ⟨i, c, -, -, e⟩ | ⟨-, e⟩⟩⟩⟩
  all_goals rw [e]
  · exact h
  · rcases t.installJoin_cases r i c with ⟨-, e⟩ | ⟨-, -, e⟩ | ⟨-, -, e⟩ <;> rw [e]
    · exact h
    · exact h
    · exact h.setXps _
  · unfold State.installFree
    dsimp only
    split
    · exact (h.setXps _).offer _
    · exact h.setXps _
  · exact ((h.foldl_hand _).setXps _).offer _
  · exact h

theorem retire (h : s.Calm t) (i : SlotIx) : s.Calm (t.retire i) := by
  unfold State.retire
  dsimp only
  split
  · exact (h.foldl_hand _).setXps _
  · split
    · exact (h.setXps _).offer _
    · exact h.setXps _
  · exact h.setXps _
  · exact h

/-! ### Keys and walks -/

theorem removeKey (h : s.Calm t) (p : Port) (k : Key) (swallow : Bool) : s.Calm (t.removeKey p k swallow) := by
  rw [State.removeKey_eq]
  refine ((h.setXps _).setWalker _ ?_).setEntry p k _
  exact Nat.le_refl _

theorem press (h : s.Calm t) (p : Port) (k : Key) (stamp : Stamp) : s.Calm (t.press p k stamp).1 := by
  unfold State.press
  dsimp only
  split
  · exact h.setEntry _ _ _
  · exact h.setEntry _ _ _
  · exact h.setEntry _ _ _
  · exact h
  · exact h.removeKey _ _ _

theorem releaseHeld (h : s.Calm t) (p : Port) (k : Key) (stamp : Stamp) : s.Calm (t.releaseHeld p k stamp).1 := by
  unfold State.releaseHeld
  dsimp only
  split
  · exact h.removeKey _ _ _
  · exact h.setEntry _ _ _

theorem release (h : s.Calm t) (p : Port) (k : Key) (stamp : Stamp) : s.Calm (t.release p k stamp).1 := by
  unfold State.release
  dsimp only
  split
  · exact h.setEntry _ _ _
  · split
    · exact h.releaseHeld _ _ _
    · exact h.setEntry _ _ _
    · exact h.setEntry _ _ _
    · exact h
    · exact h

theorem applyLevel (h : s.Calm t) (l : KeyLevel) : s.Calm (t.applyLevel l).1 := by
  unfold State.applyLevel
  dsimp only
  split
  · split
    · split
      · exact h
      · exact h.press _ _ _
    all_goals exact h
  · split
    · exact h.releaseHeld _ _ _
    all_goals exact h.setEntry _ _ _

theorem applyLevels (h : s.Calm t) (ls : List KeyLevel) : s.Calm (t.applyLevels ls) := by
  induction ls generalizing t with
  | nil => exact h.setJob _
  | cons l rest ih =>
    unfold State.applyLevels
    dsimp only
    split
    · exact ih (h.applyLevel l)
    · exact (h.applyLevel l).setJob _

theorem workOn {r : State × KeyWork} (h : s.Calm r.1) : s.Calm (State.workOn r) := by
  obtain ⟨j, -, e⟩ := State.workOn_eq r
  rw [e]
  exact h.setJob j

theorem handle (h : s.Calm t) (e : KeyEvent) : s.Calm (t.handle e) := by
  cases e <;> unfold State.handle <;> dsimp only <;> split
  case press.isTrue => exact workOn (h.press _ _ _)
  case release.isTrue => exact workOn (h.release _ _ _)
  case state.isTrue => exact h.applyLevels _
  case cueOpen.isFalse => exact workOn h
  case retry.isTrue => exact workOn h
  all_goals exact h

theorem raiseCall (h : s.Calm t) (p : Port) (k : Key) (x : Hit) : s.Calm (t.raiseCall p k x) := by
  unfold State.raiseCall
  split
  · refine (h.setWalker _ ?_).setEntry p k _
    exact Nat.le_refl _
  · exact h

theorem settleCalls (h : s.Calm t) (tag : Tag) (hs : List Hit) (ok : Bool) :
    s.Calm (State.settleCalls tag hs ok t).1 := by
  induction hs generalizing t ok with
  | nil => exact h
  | cons x rest ih =>
    unfold State.settleCalls
    split
    · cases tag with
      | key p k => exact ih (h.raiseCall p k x) true
      | cue c => exact ih h ok
    · exact h

theorem startMaking (h : s.Calm t) (w : Walk) : s.Calm (t.startMaking w).1 := by
  unfold State.startMaking
  dsimp only
  split
  · exact (h.setEntry _ _ _).settleCalls _ _ _
  · exact h.settleCalls _ _ _

theorem endWalk (h : s.Calm t) (w : Walk) (rest : List KeyLevel) : s.Calm (t.endWalk w rest) := by
  refine State.Calm.applyLevels ((h.setDirectory _ ?_).setDirectory _ ?_) rest <;> rfl

theorem walkMissed (h : s.Calm t) (w : Walk) : s.Calm (t.walkMissed w) := by
  unfold State.walkMissed
  dsimp only
  split
  · exact (h.setEntry _ _ _).offer _
  · exact h.offer _

theorem walkOutcome (h : s.Calm t) (w : Walk) (ok : Bool) : s.Calm (t.walkOutcome w ok) := by
  have decided : s.Calm (match w.tag with
      | .key p k =>
        if ok then t.setEntry p k { t.entry p k with state := .held, lamp := if w.busyHeld then .busy else .on }
        else (t.setEntry p k { t.entry p k with state := .refused, lamp := .busy }).report .slotExhausted (.port p)
      | .cue c => if ok then t else t.report .slotExhausted (.circuit c)) := by
    split <;> split
    · exact h.setEntry _ _ _
    · exact (h.setEntry _ _ _).report _ _
    · exact h
    · exact h.report _ _
  unfold State.walkOutcome
  dsimp only
  split
  · exact decided.offer _
  · exact decided

theorem installHit (h : s.Calm t) (tag : Tag) (x : Hit) : s.Calm (t.installHit tag x).1 := by
  unfold State.installHit
  split
  · exact h.install _
  · exact h

/-! ### Circuits -/

theorem offerChanges (h : s.Calm t) (before : Vector Circuit 24) : s.Calm (t.offerChanges before) := by
  rw [State.offerChanges_eq]
  exact h.offers _

theorem standbyQuiet (h : s.Calm t) (c : CircuitIx) (cue : Option CueNumber) : s.Calm (t.standbyQuiet c cue).1 := by
  rw [State.standbyQuiet_eq]
  dsimp only
  split
  · exact (h.setCircuit _ _).postCueOpen c
  · exact h.setCircuit _ _

theorem standby (h : s.Calm t) (c : CircuitIx) (cue : Option CueNumber) : s.Calm (t.standby c cue).1 :=
  (h.standbyQuiet c cue).offerChanges _

theorem goQuiet (h : s.Calm t) (c : CircuitIx) (cue : Option CueNumber) : s.Calm (t.goQuiet c cue).1 := by
  unfold State.goQuiet
  dsimp only
  split
  · exact h.setCircuit _ _
  · exact h

theorem go (h : s.Calm t) (c : CircuitIx) (cue : Option CueNumber) : s.Calm (t.go c cue).1 :=
  (h.goQuiet c cue).offerChanges _

theorem toIdle (h : s.Calm t) (c : CircuitIx) (x : Circuit) : s.Calm (t.toIdle c x) :=
  (((h.setCircuit _ _).offer _).hand _).suppress _

theorem cancel (h : s.Calm t) (c : CircuitIx) : s.Calm (t.cancel c).1 := by
  unfold State.cancel
  dsimp only
  split
  case h_5 => exact h
  all_goals exact h.toIdle c _

theorem takeLostMark (h : s.Calm t) (p : Port) (lost : Bool) : s.Calm (t.takeLostMark p lost) := by
  unfold State.takeLostMark
  split
  · exact h.take fun u => (refl u).setCircuits _
  · exact h

theorem abortCircuits (h : s.Calm t) (cs : List CircuitIx) : s.Calm (cs.foldl State.abortCircuit t) := by
  induction cs generalizing t with
  | nil => exact h
  | cons c rest ih =>
    refine ih ?_
    unfold State.abortCircuit
    dsimp only
    split
    · exact h
    · exact (h.setCircuit _ _).offer _

/-! ### The cue list -/

theorem standbyAll (h : s.Calm t) (cue : CueNumber) (cs : List CircuitIx) : s.Calm (State.standbyAll cue cs t).1 := by
  induction cs generalizing t with
  | nil => exact h
  | cons c rest ih => exact ih (h.standbyQuiet c _)

theorem goAll (h : s.Calm t) (cue : CueNumber) (cs : List CircuitIx) : s.Calm (t.goAll cue cs) := by
  unfold State.goAll
  induction cs generalizing t with
  | nil => exact h
  | cons c rest ih => exact ih (h.goQuiet c _)

theorem autoStandby (h : s.Calm t) : s.Calm t.autoStandby.1 := by
  unfold State.autoStandby
  split
  · split
    · exact h.standbyAll _ _
    · exact h
  · exact h

/-- The cursor stays within the list where it moves within it (R109). -/
theorem moveCursor (h : s.Calm t) (n : Nat) (lastCue beforeFault : Option LastCue)
    (hn : t.cueList.cursor ≤ t.cueList.entries.length → n ≤ t.cueList.entries.length) :
    s.Calm (t.setCueList ⟨t.cueList.entries, n, lastCue, beforeFault⟩) :=
  h.setCueList _ fun ⟨hl, he, hc⟩ => ⟨hl, he, hn hc⟩

theorem goAll_cueList (cue : CueNumber) (cs : List CircuitIx) (t : State) : (t.goAll cue cs).cueList = t.cueList := by
  unfold State.goAll
  induction cs generalizing t with
  | nil => rfl
  | cons c rest ih =>
    rw [List.foldl_cons, ih]
    unfold State.goQuiet
    dsimp only
    split <;> rfl

/-- GO NEXT moves the cursor on from an entry, so not past the end of the list (R115). -/
theorem goNext (h : s.Calm t) : s.Calm t.goNext.1 := by
  unfold State.goNext
  split
  · exact h
  · rename_i e he
    split
    · exact h
    · have here : t.cueList.cursor < t.cueList.entries.length := (List.getElem?_eq_some_iff.1 he).1
      refine State.Calm.offerChanges (autoStandby ((h.goAll _ _).moveCursor _ _ _ fun _ => ?_)) _
      rw [goAll_cueList]
      exact here

theorem standbyNext (h : s.Calm t) : s.Calm t.standbyNext.1 := by
  unfold State.standbyNext
  split
  · exact h
  · dsimp only
    split <;> exact (h.standbyAll _ _).offerChanges _

theorem back (h : s.Calm t) : s.Calm t.back.1 := by
  unfold State.back
  split
  · exact h
  · exact h.moveCursor _ _ _ fun _ => by omega

theorem skip (h : s.Calm t) : s.Calm t.skip.1 := by
  unfold State.skip
  split
  · exact h
  · exact h.moveCursor _ _ _ fun _ => by omega

/-! ### Desks and station ports -/

theorem deskReply (h : s.Calm t) (p : Port) (seq : Byte) (status : Status) : s.Calm (t.deskReply p seq status) := by
  rcases t.deskReply_cases p seq status with e | ⟨-, -, e⟩ <;> rw [e]
  · exact h
  · exact h.setPort _ _

theorem takeDesk (p : Port) (r : DeskRequest) {effect : State → State × Status}
    (he : ∀ u : State, u.Calm (effect u).1) : s.Calm (s.takeDesk p r effect) := by
  unfold State.takeDesk
  split
  · rename_i seq wanted r' _
    split
    · have taken : s.Calm (effect (s.setRequests (s.requests.erase (.desk p seq wanted r)))).1 :=
        ((refl s).setRequests _).trans (he _)
      dsimp only
      split
      · exact taken.deskReply _ _ _
      · exact taken
    · exact refl s
  · exact refl s

theorem dropPort (h : s.Calm t) (p : Port) : s.Calm (t.dropPort p) := by
  rw [State.dropPort_eq]
  exact ((h.setPort _ _).setRequests _).suppress _

theorem goDown (h : s.Calm t) (p : Port) : s.Calm (t.goDown p) := by
  unfold State.goDown
  split
  · exact h.dropPort _
  · exact h.setPort _ _
  · exact h

theorem lostFrame (h : s.Calm t) (p : Port) (held : Bool) : s.Calm (t.lostFrame p held) := by
  unfold State.lostFrame
  dsimp only
  split
  · exact h.setPort _ _
  · split <;> exact h.setPort _ _
  · split
    · exact h.setPort _ _
    · exact h.dropPort _

theorem talkEdge (h : s.Calm t) (p : Port) (before after : BitVec 7) (k : Key) :
    s.Calm (t.talkEdge p before after k) := by
  rcases t.talkEdge_cases p before after k with ⟨-, e⟩ | ⟨-, -, hq, e⟩ | ⟨-, -, -, e⟩ <;> rw [e]
  · exact h
  · exact h.enqueue _ (by omega)
  · exact (h.setPort _ _).report _ _

theorem answerEdge (h : s.Calm t) (p : Port) (l : CrewLamp) (was is : Bool) : s.Calm (t.answerEdge p l was is) := by
  unfold State.answerEdge
  split
  · exact h.hand _
  · exact h

theorem edges (h : s.Calm t) (p : Port) (before after : BitVec 7) : s.Calm (t.edges p before after) := by
  have talk (ks : List Key) : s.Calm (ks.foldl (State.talkEdge p before after) t) := by
    induction ks generalizing t with
    | nil => exact h
    | cons k rest ih => exact ih (h.talkEdge p before after k)
  exact ((talk _).answerEdge _ _ _ _).answerEdge _ _ _ _

theorem deskMessage (h : s.Calm t) (p : Port) (bytes : List Byte) : s.Calm (t.deskMessage p bytes) := by
  unfold State.deskMessage
  split
  · dsimp only
    split
    · exact h.hand _
    · exact h.deskReply _ _ _
  · exact h

theorem deskByte (h : s.Calm t) (p : Port) (u : Uplink) : s.Calm (t.deskByte p u) := by
  unfold State.deskByte
  dsimp only
  split
  · split
    · exact (h.setPort _ _).deskMessage _ _
    · exact h.setPort _ _
  · exact h

theorem goodFrame (h : s.Calm t) (p : Port) (u : Uplink) : s.Calm (t.goodFrame p u) := by
  unfold State.goodFrame
  dsimp only
  split
  · exact h.setPort _ _
  · split
    · exact h.setPort _ _
    · exact ((h.setPort _ _).hand _).deskByte _ _
  · exact ((h.setPort _ _).edges _ _ _).deskByte _ _

theorem loseFrame (h : s.Calm t) (held : Period) : s.Calm (t.loseFrame held) := by
  unfold State.loseFrame
  dsimp only
  split <;> exact (h.setTrunk _).report _ _

end State.Calm

end Sys2Proof.Machine
end

section
/-!
PROOFS, the fault log under a report (R181 to R187): what each way of taking it makes of a sound log.
-/

namespace Sys2Proof.Machine

open State (Calm)

/-- What a record stands for (R181). -/
def FaultRecord.subject (r : FaultRecord) : FaultKind × Location := (r.kind, r.loc)

theorem FaultRecord.covers_iff (r : FaultRecord) (kind : FaultKind) (loc : Location) :
    r.covers kind loc = true ↔ r.subject = (kind, loc) := by
  simp [FaultRecord.covers, FaultRecord.subject]

/-- No two records of one kind and location: the subjects are without repeats. -/
theorem FaultLog.sound_iff (l : FaultLog) : l.sound ↔ l.records.length ≤ 8
    ∧ (l.records.map FaultRecord.subject).Nodup ∧ (∀ r ∈ l.records, 1 ≤ r.count ∧ r.count ≤ 255)
    ∧ l.readPos ≤ l.records.length := by
  have distinct : l.records.Pairwise (fun a b => a.kind ≠ b.kind ∨ a.loc ≠ b.loc)
      ↔ (l.records.map FaultRecord.subject).Nodup := by
    rw [List.Nodup, List.pairwise_map]
    refine iff_of_eq (congrArg (l.records.Pairwise ·) ?_)
    funext a b
    simp only [FaultRecord.subject, ne_eq, Prod.mk.injEq, not_and_or]
  rw [FaultLog.sound, distinct]
  rfl

/-- Counts and marks may change: each record keeps its subject and a count from 1 to 255. -/
theorem FaultLog.sound.update {l : FaultLog} (h : l.sound) {rs : List FaultRecord}
    (hs : rs.map FaultRecord.subject = l.records.map FaultRecord.subject)
    (hc : (∀ r ∈ l.records, 1 ≤ r.count ∧ r.count ≤ 255) → ∀ r ∈ rs, 1 ≤ r.count ∧ r.count ≤ 255) :
    FaultLog.sound { l with records := rs } := by
  obtain ⟨hlen, hdist, hcount, hpos⟩ := l.sound_iff.1 h
  have same : rs.length = l.records.length := by simpa using congrArg List.length hs
  exact (FaultLog.sound_iff _).2 ⟨same ▸ hlen, hs ▸ hdist, hc hcount, same ▸ hpos⟩

theorem changeFirst_again_subject (test : FaultRecord → Bool) (rs : List FaultRecord) :
    (changeFirst test FaultRecord.again rs).map FaultRecord.subject = rs.map FaultRecord.subject := by
  induction rs with
  | nil => rfl
  | cons r rest ih =>
    unfold changeFirst
    split
    · rfl
    · rw [List.map_cons, ih, List.map_cons]

theorem mem_changeFirst {test : FaultRecord → Bool} {f : FaultRecord → FaultRecord} {rs : List FaultRecord}
    {x : FaultRecord} (hx : x ∈ changeFirst test f rs) : x ∈ rs ∨ ∃ r ∈ rs, x = f r := by
  induction rs with
  | nil => exact .inl hx
  | cons r rest ih =>
    unfold changeFirst at hx
    split at hx <;> rcases List.mem_cons.1 hx with rfl | hx
    · exact .inr ⟨r, List.mem_cons_self, rfl⟩
    · exact .inl (List.mem_cons_of_mem _ hx)
    · exact .inl List.mem_cons_self
    · rcases ih hx with hx | ⟨y, hy, rfl⟩
      · exact .inl (List.mem_cons_of_mem _ hx)
      · exact .inr ⟨y, List.mem_cons_of_mem _ hy, rfl⟩

theorem markNewest_subject (rs : List FaultRecord) :
    (markNewest rs).map FaultRecord.subject = rs.map FaultRecord.subject := by
  induction rs using markNewest.induct with
  | case1 => rfl
  | case2 r => rfl
  | case3 r rest hne ih => rw [markNewest.eq_3 r rest hne, List.map_cons, ih, List.map_cons]

theorem mem_markNewest {rs : List FaultRecord} {x : FaultRecord} (hx : x ∈ markNewest rs) :
    ∃ r ∈ rs, x.count = r.count := by
  induction rs using markNewest.induct with
  | case1 => cases hx
  | case2 r =>
    obtain rfl := List.mem_singleton.1 hx
    exact ⟨r, List.mem_singleton_self r, rfl⟩
  | case3 r rest hne ih =>
    rw [markNewest.eq_3 r rest hne] at hx
    rcases List.mem_cons.1 hx with rfl | hx
    · exact ⟨x, List.mem_cons_self, rfl⟩
    · obtain ⟨y, hy, e⟩ := ih hx
      exact ⟨y, List.mem_cons_of_mem _ hy, e⟩

/-- The oldest MINOR record leaves its place in the list (R184). -/
theorem splitMinor_some {rs left : List FaultRecord} {gone : FaultRecord} {place : Nat}
    (h : splitMinor rs = some (gone, left, place)) :
    ∃ before after, rs = before ++ gone :: after ∧ left = before ++ after ∧ place = before.length := by
  induction rs generalizing left place with
  | nil => cases h
  | cons r rest ih =>
    unfold splitMinor at h
    split at h
    · cases h
      exact ⟨[], rest, rfl, rfl, rfl⟩
    · obtain ⟨⟨g, l, n⟩, hx, e⟩ := Option.map_eq_some_iff.1 h
      cases e
      obtain ⟨before, after, rfl, rfl, rfl⟩ := ih hx
      exact ⟨r :: before, after, rfl, rfl, rfl⟩

/-- A sound log takes a new record where it has room and none of that subject. -/
theorem FaultLog.sound.create {l : FaultLog} (h : l.sound) {r : FaultRecord} (hl : l.records.length < 8)
    (hn : r.subject ∉ l.records.map FaultRecord.subject) (hr : r.count = 1) :
    FaultLog.sound { l with records := l.records ++ [r] } := by
  obtain ⟨-, hdist, hcount, hpos⟩ := l.sound_iff.1 h
  refine (FaultLog.sound_iff _).2 ⟨?_, ?_, fun x hx => ?_, ?_⟩
  · simp only [List.length_append, List.length_singleton]
    omega
  · rw [List.map_append, List.map_singleton]
    exact List.nodup_append.2 ⟨hdist, List.nodup_singleton _, fun a ha b hb => by
      obtain rfl := List.mem_singleton.1 hb
      exact fun e => hn (e ▸ ha)⟩
  · rcases List.mem_append.1 hx with hx | hx
    · exact hcount x hx
    · obtain rfl := List.mem_singleton.1 hx
      omega
  · simp only [List.length_append, List.length_singleton]
    omega

/-- The log without its oldest MINOR record, the read position keeping its record (R184, R187). -/
theorem FaultLog.sound.evict {l : FaultLog} (h : l.sound) {gone : FaultRecord} {left : List FaultRecord} {place : Nat}
    (hs : splitMinor l.records = some (gone, left, place)) :
    FaultLog.sound ⟨left, if place < l.readPos then l.readPos - 1 else l.readPos⟩ ∧ left.length < 8
      ∧ ∀ x ∈ left.map FaultRecord.subject, x ∈ l.records.map FaultRecord.subject := by
  obtain ⟨before, after, hrs, rfl, rfl⟩ := splitMinor_some hs
  obtain ⟨hlen, hdist, hcount, hpos⟩ := l.sound_iff.1 h
  have sub : (before ++ after).Sublist l.records :=
    hrs ▸ (List.Sublist.refl before).append (List.sublist_cons_self gone after)
  have shorter : (before ++ after).length + 1 = l.records.length := by
    rw [hrs]
    simp only [List.length_append, List.length_cons]
    omega
  refine ⟨(FaultLog.sound_iff _).2 ⟨?_, (sub.map _).nodup hdist, fun x hx => hcount x (sub.subset hx), ?_⟩, ?_,
    fun x hx => (sub.map _).subset hx⟩
  · dsimp only
    omega
  · dsimp only
    rw [List.length_append] at shorter ⊢
    split <;> omega
  · omega

/-- A report changes the fault log within its bounds, takes the last-cue copy and may offer a notice (R181 to R185). -/
theorem State.Calm.logFault {s t : State} (h : s.Calm t) (kind : FaultKind) (loc : Location) :
    s.Calm (t.logFault kind loc) := by
  have created {overflow : Bool} {log : FaultLog} (hlog : t.faultLog.sound → log.sound ∧ log.records.length < 8
      ∧ (kind, loc) ∉ log.records.map FaultRecord.subject) : s.Calm (t.newFault kind loc overflow log) := by
    have logged : s.Calm ((t.setFaultLog { log with
        records := log.records ++ [⟨kind, loc, t.clock, 1, overflow⟩] }).setCueList
          { t.cueList with beforeFault := t.cueList.lastCue }) := by
      refine (h.setFaultLog _ fun hs => ?_).setCueList _ ?_
      · obtain ⟨hsound, hroom, hnew⟩ := hlog hs
        exact hsound.create hroom hnew rfl
      · exact id
    unfold State.newFault
    dsimp only
    split
    · exact logged
    · exact logged.offer _
  unfold State.logFault
  dsimp only
  split
  · refine h.setFaultLog _ fun hs => hs.update (changeFirst_again_subject _ _) fun hc x hx => ?_
    rcases mem_changeFirst hx with hx | ⟨r, hr, rfl⟩
    · exact hc x hx
    · have := hc r hr
      simp only [FaultRecord.again, Config.repeatTop]
      omega
  · rename_i hnew
    have fresh : (kind, loc) ∉ t.faultLog.records.map FaultRecord.subject := by
      intro hm
      obtain ⟨r, hr, e⟩ := List.mem_map.1 hm
      exact hnew (List.any_eq_true.2 ⟨r, hr, (r.covers_iff kind loc).2 e⟩)
    split
    · rename_i hroom
      exact created fun hs => ⟨hs, hroom, fresh⟩
    · split
      · rename_i gone left place hm
        have hsplit : splitMinor t.faultLog.records = some (gone, left, place) := by
          split at hm
          · exact hm
          · cases hm
        refine created fun hs => ?_
        obtain ⟨hleft, hroom, hsub⟩ := hs.evict hsplit
        exact ⟨hleft, hroom, fun hm => fresh (hsub _ hm)⟩
      · refine h.setFaultLog _ fun hs => hs.update (markNewest_subject _) fun hc x hx => ?_
        obtain ⟨r, hr, e⟩ := mem_markNewest hx
        exact e ▸ hc r hr

end Sys2Proof.Machine
end

section
/-!
PROOFS, the bounds of the queues, the fault log and the cue list, and what the show lock keeps out, under every
command: O57.
-/

namespace Sys2Proof.Machine

open State (Calm)

/-! ### What the lock keeps out (R160, R177, R179) -/

/-- What the command at the head may be doing in this state of the lock: with the lock not OPEN no load and no new
region, with it FROZEN no new scene. -/
def LockState.lets (l : LockState) (e : Execution) : Prop :=
  (l ≠ .unlocked → (∀ x, e ≠ .load x) ∧ ∀ r, e ≠ .access (.setRegion r))
    ∧ (l = .frozen → ∀ n, e ≠ .access (.setScene n))

theorem State.lockSound_iff (s : State) : s.lockSound ↔
    (s.management.lock ≠ .unlocked → s.directory.initialising = false)
      ∧ s.management.lock.lets s.management.execution := by
  unfold State.lockSound LockState.lets
  tauto

theorem LockState.lets_none (l : LockState) : l.lets .none := ⟨fun _ => ⟨nofun, nofun⟩, fun _ => nofun⟩

theorem LockState.lets_softReset (l : LockState) (n : Nat) : l.lets (.softReset n) :=
  ⟨fun _ => ⟨nofun, nofun⟩, fun _ => nofun⟩

theorem LockState.lets_readRecord (l : LockState) (i : Place) : l.lets (.access (.readRecord i)) :=
  ⟨fun _ => ⟨nofun, nofun⟩, fun _ => nofun⟩

theorem LockState.lets_unlocked (e : Execution) : LockState.unlocked.lets e := ⟨fun h => absurd rfl h, nofun⟩

/-- An open load stands only under an OPEN lock. -/
theorem LockState.lets.unlocked {l : LockState} {x : Load} (h : l.lets (.load x)) : l = .unlocked := by
  by_contra hn
  exact (h.1 hn).1 x rfl

theorem LockState.lets.tick {l : LockState} {e : Execution} (h : l.lets e) (clock : Stamp) : l.lets (e.tick clock) := by
  cases e with
  | load x => exact h.unlocked ▸ LockState.lets_unlocked _
  | none | access | softReset => exact h

/-! ### The relation that every command is in -/

/-- The step keeps the queues, the fault log and the cue list within their bounds, and what the lock keeps out. -/
structure State.KeepsBounds (s t : State) : Prop where
  queues : s.queuesSound → t.queuesSound
  log : s.faultLog.sound → t.faultLog.sound
  list : s.cueList.sound → t.cueList.sound
  lock : s.lockSound → t.lockSound

/-- The command at the head is in execution, so that its reply entry is reserved, or a reply entry is free. -/
def State.roomToAnswer (s : State) : Prop := s.queuesSound → s.management.replies.length < 8

theorem State.roomToAnswer_of_execution {s : State} (h : s.management.execution ≠ .none) : s.roomToAnswer := by
  rintro ⟨-, -, hr, -⟩
  rw [Management.repliesTaken, if_neg h, Config.replyCapacity] at hr
  omega

theorem State.head_of_execution {s : State} (h : s.management.execution ≠ .none) (hs : s.queuesSound) :
    s.management.commands ≠ [] := by
  obtain ⟨-, -, -, -, hh⟩ := hs
  exact hh h

namespace State.Calm

variable {s t : State}

theorem queuesSound (h : s.Calm t) (hs : s.queuesSound) : t.queuesSound := by
  obtain ⟨hq, hc, hr, hn, hh⟩ := hs
  have taken : t.management.repliesTaken = s.management.repliesTaken := by
    rw [Management.repliesTaken, Management.repliesTaken, h.replies, h.execution]
  exact ⟨h.events hq, h.commands ▸ hc, taken ▸ hr, h.notices hn, h.execution ▸ h.commands ▸ hh⟩

theorem lockSound (h : s.Calm t) (hs : s.lockSound) : t.lockSound := by
  rw [State.lockSound_iff] at hs ⊢
  rw [h.lock, h.initialising, h.execution]
  exact hs

theorem keepsBounds (h : s.Calm t) : s.KeepsBounds t := ⟨h.queuesSound, h.log, h.list, h.lockSound⟩

/-- The reply of the command at the head is placed in its entry (R160). -/
theorem answer (h : s.Calm t) (room : s.roomToAnswer) (a : Answer) : s.KeepsBounds (t.answer a) where
  queues hs := by
    obtain ⟨hq, hc, hr, hn, hh⟩ := h.queuesSound hs
    cases hcs : t.management.commands with
    | nil =>
      have same : t.answer a = t := by
        rw [State.answer, hcs]
      rw [same]
      exact ⟨hq, hc, hr, hn, hh⟩
    | cons c rest =>
      rw [t.answer_of_commands hcs]
      have placed : t.management.replies.length < 8 := h.replies ▸ room hs
      rw [hcs, List.length_cons] at hc
      refine ⟨hq, Nat.le_of_succ_le hc, ?_, hn, fun hne => absurd rfl hne⟩
      show (t.management.replies ++ _).length + 0 ≤ 8
      rw [List.length_append]
      exact placed
  log hs := by
    rw [State.answer_faultLog]
    exact h.log hs
  list hs := by
    rw [State.answer_cueList]
    exact h.list hs
  lock hs := by
    have ht := h.lockSound hs
    cases hcs : t.management.commands with
    | nil =>
      rw [State.answer, hcs]
      exact ht
    | cons c rest =>
      rw [t.answer_of_commands hcs]
      exact (State.lockSound_iff _).2 ⟨((State.lockSound_iff _).1 ht).1, LockState.lets_none _⟩

/-- The command at the head goes on, its reply entry being reserved, with work that the lock lets it do. -/
theorem execute (h : s.Calm t) (room : s.roomToAnswer) (hc : s.queuesSound → s.management.commands ≠ []) {e : Execution}
    (he : s.lockSound → s.management.lock.lets e) : s.KeepsBounds (t.execute e) where
  queues hs := by
    obtain ⟨hq, hcs, -, hn, -⟩ := h.queuesSound hs
    refine ⟨hq, hcs, ?_, hn, fun _ => ?_⟩
    · have placed : t.management.replies.length < 8 := h.replies ▸ room hs
      show t.management.replies.length + _ ≤ 8
      split <;> omega
    · exact h.commands ▸ hc hs
  log := h.log
  list := h.list
  lock hs := by
    refine (State.lockSound_iff _).2 ⟨((State.lockSound_iff _).1 (h.lockSound hs)).1, ?_⟩
    exact h.lock ▸ he hs

/-- A reply that no command reserved takes a free entry, if there is one (R159, R170). -/
theorem reply (h : s.Calm t) (r : Reply) : s.KeepsBounds (t.reply r) := by
  rcases t.reply_cases r with ⟨hroom, e⟩ | ⟨-, e⟩ <;> rw [e]
  · refine ⟨fun hs => ?_, h.log, h.list, h.lockSound⟩
    obtain ⟨hq, hc, -, hn, hh⟩ := h.queuesSound hs
    refine ⟨hq, hc, ?_, hn, hh⟩
    unfold Management.repliesTaken at hroom
    show (t.management.replies ++ [r]).length + _ ≤ 8
    rw [List.length_append, List.length_singleton, Nat.add_right_comm]
    exact hroom
  · exact h.keepsBounds

/-- The last request of a soft reset taken, its reply is placed (R174). -/
theorem resetTaken (h : s.Calm t) : s.KeepsBounds t.resetTaken := by
  rcases t.resetTaken_cases with e | ⟨n, he, -, e⟩ <;> rw [e]
  · exact h.keepsBounds
  · refine h.answer (State.roomToAnswer_of_execution ?_) _
    rw [← h.execution, he]
    exact nofun

end State.Calm

namespace State.KeepsBounds

variable {s t u : State}

theorem refl (s : State) : s.KeepsBounds s := (Calm.refl s).keepsBounds

theorem trans (h : s.KeepsBounds t) (h' : t.KeepsBounds u) : s.KeepsBounds u :=
  ⟨h'.queues ∘ h.queues, h'.log ∘ h.log, h'.list ∘ h.list, h'.lock ∘ h.lock⟩

theorem calm (h : s.KeepsBounds t) (h' : t.Calm u) : s.KeepsBounds u := h.trans h'.keepsBounds

theorem take (s : State) {r : Request} {effect : State → State} (he : ∀ u : State, u.KeepsBounds (effect u)) :
    s.KeepsBounds (s.take r effect) := by
  rcases s.take_cases r effect with ⟨-, e⟩ | ⟨-, e⟩ <;> rw [e]
  · exact ((Calm.refl s).setRequests _).keepsBounds.trans (he _)
  · exact refl s

end State.KeepsBounds

open State (KeepsBounds)

/-- The command at the head, with this code, begins: none is in execution, a reply entry is free, and the lock does
not refuse it (R160, R161). -/
structure State.Begins (s : State) (code : Nat) : Prop where
  head : s.management.commands ≠ []
  room : s.roomToAnswer
  idle : s.management.execution = .none
  initialised : s.directory.initialising = false
  allowed : s.management.lock.refuses (BitVec.ofNat 8 code) = false

theorem State.KeepsBounds.begin {s : State} {code : Nat} {effect : List Byte → State → State}
    (he : s.Begins code → ∀ ps, s.KeepsBounds (effect ps s)) : s.KeepsBounds (s.begin code effect) := by
  rcases s.begin_cases code effect with e | ⟨c, rest, hc, hb, hcode, hl⟩
  · rw [e]
    exact .refl s
  · obtain ⟨hi, hx, hr⟩ := s.mayBegin_iff.1 hb
    rcases hl with ⟨-, e⟩ | ⟨hl, e⟩ <;> rw [e]
    · exact (Calm.refl s).answer (fun _ => hr) _
    · refine he ⟨by simp [hc], fun _ => hr, hx, hi, ?_⟩ _
      rwa [← hcode, BitVec.ofNat_toNat, BitVec.setWidth_eq]

/-- A command that changes things calmly and is answered. -/
theorem State.KeepsBounds.answering {s : State} {code : Nat} {effect : List Byte → State → State}
    (he : ∀ ps, ∃ t a, s.Calm t ∧ effect ps s = t.answer a) : s.KeepsBounds (s.begin code effect) := by
  refine .begin fun hb ps => ?_
  obtain ⟨t, a, ht, e⟩ := he ps
  rw [e]
  exact ht.answer hb.room a

end Sys2Proof.Machine
end

section
/-!
PROOFS, the bounds under every command, and O57.
-/

namespace Sys2Proof.Machine

open State (Calm KeepsBounds)

/-! ### The frame start and cells (R153, R157, R159, R167) -/

theorem State.fillCell_le (s : State) : s.fillCell.2.management.replies.length ≤ s.management.replies.length
    ∧ s.fillCell.2.management.notices.length ≤ s.management.notices.length := by
  rcases s.fillCell_cases with ⟨r, rs, hr, e⟩ | ⟨n, ns, hr, hn, e⟩ | ⟨-, -, e⟩ <;> rw [e]
  · exact ⟨by simp [hr], Nat.le_refl _⟩
  · exact ⟨Nat.le_refl _, by simp [hn]⟩
  · exact ⟨Nat.le_refl _, Nat.le_refl _⟩

/-- A frame start takes at most one reply or one notice from its queue (R153). -/
theorem State.frameStart_le (s : State) : s.frameStart.management.replies.length ≤ s.management.replies.length
    ∧ s.frameStart.management.notices.length ≤ s.management.notices.length := by
  have sent (u : State) (m : MixInput) :
      (u.outgoing m).management.replies.length ≤ u.management.replies.length
        ∧ (u.outgoing m).management.notices.length ≤ u.management.notices.length := by
    obtain ⟨f, b, h | h⟩ := u.outgoing_eq m <;> rw [h, State.sendFrame_management]
    · exact ⟨Nat.le_refl _, Nat.le_refl _⟩
    · exact u.fillCell_le
  have := sent (s.tickClock.mix.sendDownlinks s.tickClock.mix.mixInput) s.tickClock.mix.mixInput
  rwa [State.sendDownlinks_management, State.mix_management] at this

theorem Execution.tick_none_iff (e : Execution) (clock : Stamp) : e.tick clock = .none ↔ e = .none := by
  cases e <;> simp [Execution.tick]

theorem State.frameStart_keepsBounds (s : State) : s.KeepsBounds s.frameStart where
  queues := by
    rintro ⟨hq, hc, hr, hn, hh⟩
    obtain ⟨hreplies, hnotices⟩ := s.frameStart_le
    have idle := Execution.tick_none_iff s.management.execution (s.trunk.clock + 1)
    refine ⟨?_, ?_, ?_, Nat.le_trans hnotices hn, ?_⟩
    · rwa [s.frameStart_walker]
    · rwa [s.frameStart_commands]
    · unfold Management.repliesTaken at hr ⊢
      simp only [s.frameStart_execution, idle]
      omega
    · rw [s.frameStart_commands, s.frameStart_execution, ne_eq, idle]
      exact hh
  log := by rw [s.frameStart_faultLog]; exact id
  list := by rw [s.frameStart_cueList]; exact id
  lock hs := by
    obtain ⟨hi, hl⟩ := (State.lockSound_iff s).1 hs
    rw [State.lockSound_iff, s.frameStart_lock, s.frameStart_directory, s.frameStart_execution]
    exact ⟨hi, hl.tick _⟩

theorem keepsBounds_frameStart : Leads State.KeepsBounds .frameStart := by
  refine fun s => ⟨_, rfl, ?_⟩
  split
  · exact s.frameStart_keepsBounds
  · exact .refl s

/-- The load in execution goes on with another record, the lock being OPEN. -/
theorem State.Calm.nextLoad {s t : State} (h : s.Calm t) {l : Load} (hl : s.management.execution = .load l)
    (l' : Load) : s.KeepsBounds (t.execute (.load l')) := by
  have busy : s.management.execution ≠ .none := hl ▸ nofun
  refine h.execute (State.roomToAnswer_of_execution busy) (State.head_of_execution busy) fun hs => ?_
  have lets := ((State.lockSound_iff s).1 hs).2
  rw [hl] at lets
  exact lets.unlocked ▸ LockState.lets_unlocked _

theorem State.handCell_keepsBounds (s : State) (cell : List Byte) : s.KeepsBounds (s.handCell cell) := by
  unfold State.handCell
  split
  · unfold State.admitCommand
    dsimp only
    split
    · rename_i hroom
      refine ⟨fun ⟨hq, hc, hr, hn, hh⟩ => ⟨hq, ?_, hr, hn, fun _ => by simp⟩, id, id, id⟩
      simpa using hroom
    · exact (Calm.refl s).reply _
  · unfold State.data
    dsimp only
    split
    · rename_i l hl
      split
      · exact (Calm.refl s).reply _
      · exact (Calm.refl s).nextLoad hl _
    all_goals exact (Calm.refl s).reply _
  all_goals exact .refl s

theorem keepsBounds_trunkArrival (bytes : List Byte) : Leads State.KeepsBounds (.trunkArrival bytes) := by
  refine fun s => ⟨_, rfl, ?_⟩
  have took (x : TrunkPort) : s.Calm (s.setTrunk x) := (Calm.refl s).setTrunk x
  split
  · exact .refl s
  · exact (took _).keepsBounds
  · exact (took _).keepsBounds
  · exact (took _).keepsBounds
  · exact (took _).keepsBounds
  · unfold State.takeTrunkFrame
    dsimp only
    split
    · exact ((took _).report _ _).keepsBounds
    · exact (took _).keepsBounds.trans (State.handCell_keepsBounds _ _)
    · exact (took _).keepsBounds
  · exact ((Calm.refl s).loseFrame _).keepsBounds

/-! ### Table RAM (R44, R52, R160, R166 to R169) -/

theorem State.access_keepsBounds {s : State} (room : s.roomToAnswer) (a : Access) (upsets : Upsets) :
    s.KeepsBounds (s.access a upsets) := by
  have ended {t : State} (h : s.KeepsBounds t) : s.KeepsBounds t.accessEnded := h.calm (Calm.refl t).accessEnded
  have reached (d : Directory) (hd : d.initialising = s.directory.initialising) : s.Calm (s.setDirectory d) :=
    (Calm.refl s).setDirectory d hd
  refine ended ?_
  cases a with
  | readRecord i =>
    show s.KeepsBounds (s.readPlace i upsets)
    unfold State.readPlace
    dsimp only
    split
    · refine ((reached _ ?_).reportAll _).answer room _
      rfl
    · refine ((reached _ ?_).reportAll _).answer room _
      rfl
  | setRegion r =>
    refine (reached _ ?_).answer room _
    rfl
  | setScene n =>
    refine (reached _ ?_).answer room _
    rfl

/-- An access that the lock lets wait (R52, R54, R177). -/
theorem State.Begins.askPort {s : State} {code : Nat} (hb : s.Begins code) (a : Access) (upsets : Upsets)
    (ha : s.management.lock.lets (.access a)) : s.KeepsBounds (s.askPort a upsets) := by
  unfold State.askPort
  split
  · exact State.access_keepsBounds hb.room a upsets
  · exact (Calm.refl s).execute hb.room (fun _ => hb.head) fun _ => ha

/-- The commands that begin a load or set a new region are refused unless the lock is OPEN (R177). -/
theorem State.Begins.unlocked {s : State} {code : Nat} (hb : s.Begins code)
    (hc : LockState.locked.refuses (BitVec.ofNat 8 code) = true
      ∧ LockState.frozen.refuses (BitVec.ofNat 8 code) = true) :
    s.management.lock = .unlocked := by
  have allowed := hb.allowed
  cases hl : s.management.lock with
  | unlocked => rfl
  | locked =>
    rw [hl, hc.1] at allowed
    cases allowed
  | frozen =>
    rw [hl, hc.2] at allowed
    cases allowed

theorem keepsBounds_directorySetup : Leads State.KeepsBounds .directorySetup := by
  refine fun s => ⟨_, rfl, .begin fun hb ps => ?_⟩
  unfold directorySetup
  split
  · exact (Calm.refl s).answer hb.room _
  · exact hb.askPort _ _ (hb.unlocked (by decide) ▸ LockState.lets_unlocked _)

theorem keepsBounds_selectScene : Leads State.KeepsBounds .selectScene := by
  refine fun s => ⟨_, rfl, .begin fun hb ps => ?_⟩
  unfold selectScene
  split
  · exact (Calm.refl s).answer hb.room _
  · refine hb.askPort _ _ ⟨fun _ => ⟨nofun, nofun⟩, fun hf => ?_⟩
    have allowed := hb.allowed
    rw [hf] at allowed
    exact absurd allowed (by decide)

theorem keepsBounds_readRecord (upsets : Upsets) : Leads State.KeepsBounds (.readRecord upsets) := by
  refine fun s => ⟨_, rfl, .begin fun hb ps => ?_⟩
  unfold readRecord
  split
  · exact (Calm.refl s).answer hb.room _
  · exact hb.askPort _ _ (LockState.lets_readRecord _ _)

theorem keepsBounds_writeRecords : Leads State.KeepsBounds .writeRecords := by
  refine fun s => ⟨_, rfl, .begin fun hb ps => ?_⟩
  unfold writeRecords
  dsimp only
  split
  · exact (Calm.refl s).answer hb.room _
  · exact (Calm.refl s).execute hb.room (fun _ => hb.head) fun _ =>
      hb.unlocked (by decide) ▸ LockState.lets_unlocked _

theorem keepsBounds_tablePortGrant (upsets : Upsets) : Leads State.KeepsBounds (.tablePortGrant upsets) := by
  refine fun s => ⟨_, rfl, ?_⟩
  split
  · rename_i a ha
    split
    · exact State.access_keepsBounds (State.roomToAnswer_of_execution (ha ▸ nofun)) _ _
    · exact .refl s
  all_goals exact .refl s

theorem keepsBounds_recordWrite : Leads State.KeepsBounds .recordWrite := by
  refine fun s => ⟨_, rfl, ?_⟩
  split
  · rename_i l hl
    have room : s.roomToAnswer := State.roomToAnswer_of_execution (hl ▸ nofun)
    have ended {t : State} (h : s.KeepsBounds t) : s.KeepsBounds t.accessEnded := h.calm (Calm.refl t).accessEnded
    split
    · split
      · refine ended ?_
        unfold State.writeRecord State.closeLoad
        dsimp only
        split
        · exact (Calm.refl s).answer room _
        · split
          · refine State.Calm.answer ((Calm.refl s).setDirectory _ ?_) room _
            rfl
          · refine State.Calm.nextLoad ((Calm.refl s).setDirectory _ ?_) hl _
            rfl
      · exact .refl s
    · exact .refl s
  all_goals exact .refl s

theorem keepsBounds_loadTimerExpiry : Leads State.KeepsBounds .loadTimerExpiry := by
  refine fun s => ⟨_, rfl, ?_⟩
  split
  · rename_i l hl
    split
    · have closed := (Calm.refl s).answer (State.roomToAnswer_of_execution (hl ▸ nofun)) (l.answer .timeout)
      exact closed.calm ((Calm.refl _).report _ _)
    · exact .refl s
  all_goals exact .refl s

theorem keepsBounds_ramInitialisationEnd : Leads State.KeepsBounds .ramInitialisationEnd := by
  refine fun s => ⟨_, rfl, ?_⟩
  split
  · refine ⟨id, id, id, fun hs => ?_⟩
    exact (State.lockSound_iff _).2 ⟨fun _ => rfl, ((State.lockSound_iff s).1 hs).2⟩
  · exact .refl s

/-! ### Resets, the lock and the other commands -/

theorem FaultLog.empty_sound : FaultLog.sound ⟨[], 0⟩ :=
  ⟨Nat.zero_le _, .nil, fun _ h => absurd h List.not_mem_nil, Nat.zero_le _⟩

theorem keepsBounds_pinReset (straps : Fin 8) : Leads State.KeepsBounds (.pinReset straps) := fun _ => ⟨_, rfl, {
  queues := fun _ => ⟨Nat.zero_le _, Nat.zero_le _, Nat.zero_le _, Nat.zero_le _, fun h => absurd rfl h⟩
  log := fun _ => FaultLog.empty_sound
  list := fun _ => ⟨Nat.zero_le _, fun _ h => absurd h List.not_mem_nil, Nat.zero_le _⟩
  lock := fun _ => (State.lockSound_iff _).2 ⟨fun h => absurd rfl h, LockState.lets_none _⟩ }⟩

/-- A soft reset keeps its command at the head and reserves its reply; the events leave the queue (R82, R174). -/
theorem keepsBounds_softReset : Leads State.KeepsBounds .softReset := by
  refine fun s => ⟨_, rfl, .begin fun hb ps => ?_⟩
  rw [softReset_eq]
  refine ⟨fun hs => ?_, id, id, fun hs => ?_⟩
  · have room := hb.room hs
    obtain ⟨-, hc, -, hn, -⟩ := hs
    refine ⟨Nat.zero_le _, ?_, room, hn, fun _ => ?_⟩
    · exact Nat.le_trans (List.length_take_le _ _) (by decide)
    · simpa [List.take_eq_nil_iff] using hb.head
  · exact (State.lockSound_iff _).2 ⟨((State.lockSound_iff s).1 hs).1, LockState.lets_softReset _ _⟩

/-- A lock command begins with RAM initialisation over and nothing in execution (R160, R176). -/
theorem State.keepsBounds_setLock (s : State) (code : Nat) (next : LockState → LockState) :
    s.KeepsBounds (s.begin code (setLock next)) := by
  refine .begin fun hb ps => ?_
  have locked : s.KeepsBounds (s.setManagement { s.management with lock := next s.management.lock }) := by
    refine ⟨id, id, id, fun _ => (State.lockSound_iff _).2 ⟨fun _ => hb.initialised, ?_⟩⟩
    exact hb.idle.symm ▸ LockState.lets_none _
  refine locked.trans (State.Calm.answer (.refl _) ?_ _)
  exact hb.room

theorem keepsBounds_unknownCommand : Leads State.KeepsBounds .unknownCommand := by
  refine fun s => ⟨_, rfl, ?_⟩
  split
  · exact .refl s
  · split
    · rename_i hb
      exact (Calm.refl s).answer (fun _ => (s.mayBegin_iff.1 hb.1).2.2) _
    · exact .refl s

theorem keepsBounds_read (s : State) (code : Nat) (read : List Byte → State → Answer) :
    s.KeepsBounds (s.beginRead code read) := .answering fun _ => ⟨_, _, .refl s, rfl⟩

theorem keepsBounds_portSetup (s : State) : s.KeepsBounds (s.begin 0x10 portSetup) := by
  refine .answering fun ps => ?_
  unfold portSetup
  split
  · refine ⟨_, _, Calm.setPort ?_ _ _, rfl⟩
    split
    · exact .refl s
    · exact (Calm.refl s).goDown _
  · exact ⟨_, _, .refl s, rfl⟩

theorem keepsBounds_slotEnable (s : State) : s.KeepsBounds (s.begin 0x20 slotEnable) := by
  refine .answering fun ps => ?_
  unfold slotEnable
  dsimp only
  split
  · exact ⟨_, _, .refl s, rfl⟩
  · exact ⟨_, _, (Calm.refl s).setXps _, rfl⟩

theorem keepsBounds_slotRetire (s : State) : s.KeepsBounds (s.begin 0x21 slotRetire) := by
  refine .answering fun ps => ?_
  unfold slotRetire
  split
  · exact ⟨_, _, .refl s, rfl⟩
  · exact ⟨_, _, (Calm.refl s).retire _, rfl⟩

theorem keepsBounds_installCrosspoint (s : State) : s.KeepsBounds (s.begin 0x22 installCrosspoint) := by
  refine .answering fun ps => ?_
  unfold installCrosspoint
  dsimp only
  split
  · exact ⟨_, _, (Calm.refl s).install _, rfl⟩
  · exact ⟨_, _, .refl s, rfl⟩

theorem keepsBounds_removeCrosspoint (s : State) : s.KeepsBounds (s.begin 0x23 removeCrosspoint) := by
  refine .answering fun ps => ?_
  unfold removeCrosspoint
  split
  · exact ⟨_, _, .refl s, rfl⟩
  · split
    · split
      · exact ⟨_, _, (Calm.refl s).setXps _, rfl⟩
      · exact ⟨_, _, .refl s, rfl⟩
    all_goals exact ⟨_, _, .refl s, rfl⟩

theorem keepsBounds_setGain (s : State) : s.KeepsBounds (s.begin 0x24 setGain) := by
  refine .answering fun ps => ?_
  unfold setGain
  dsimp only
  split
  · exact ⟨_, _, .refl s, rfl⟩
  · split
    · exact ⟨_, _, (Calm.refl s).setXps _, rfl⟩
    all_goals exact ⟨_, _, .refl s, rfl⟩

theorem keepsBounds_retryKey (s : State) : s.KeepsBounds (s.begin 0x34 retryKey) := by
  refine .answering fun ps => ?_
  unfold retryKey
  split
  · split
    · split
      · exact ⟨_, _, (Calm.refl s).enqueue _ ‹_›, rfl⟩
      · exact ⟨_, _, .refl s, rfl⟩
    · exact ⟨_, _, .refl s, rfl⟩
  · exact ⟨_, _, .refl s, rfl⟩

theorem keepsBounds_circuitSetup (s : State) : s.KeepsBounds (s.begin 0x40 circuitSetup) := by
  refine .answering fun ps => ?_
  unfold circuitSetup
  dsimp only
  split
  · split
    · exact ⟨_, _, (Calm.refl s).setCircuit _ _, rfl⟩
    · exact ⟨_, _, .refl s, rfl⟩
  · exact ⟨_, _, .refl s, rfl⟩

theorem keepsBounds_cueCommand (s : State) (code : Nat) {f : CircuitIx → State → State × Status}
    (hf : ∀ c, s.Calm (f c s).1) : s.KeepsBounds (s.begin code (cueCommand f)) := by
  refine .answering fun ps => ?_
  unfold cueCommand
  split
  · exact ⟨_, _, .refl s, rfl⟩
  · exact ⟨_, _, hf _, rfl⟩

theorem keepsBounds_cueNext (s : State) : s.KeepsBounds (s.begin 0x45 cueNext) := by
  refine .answering fun ps => ⟨_, _, ?_, rfl⟩
  rcases listRequest_cases (byteAt ps 0).toNat with h | h | h | h | h <;> rw [h]
  · exact (Calm.refl s).goNext
  · exact (Calm.refl s).standbyNext
  · exact (Calm.refl s).back
  · exact (Calm.refl s).skip
  · exact .refl s

/-- An entry is written within the list or just behind it, and is not empty (R110). -/
theorem keepsBounds_cueListWrite (s : State) : s.KeepsBounds (s.begin 0x46 cueListWrite) := by
  refine .answering fun ps => ?_
  unfold cueListWrite
  dsimp only
  split
  · split
    · exact ⟨_, _, .refl s, rfl⟩
    · rename_i h
      simp only [not_or, Nat.not_lt, ge_iff_le, Nat.not_le] at h
      obtain ⟨hi, hcap, hne⟩ := h
      refine ⟨_, _, (Calm.refl s).setCueList _ fun ⟨hl, he, hc⟩ => ?_, rfl⟩
      split
      · refine ⟨?_, fun e hm => ?_, ?_⟩
        · rwa [List.length_set]
        · rcases List.mem_or_eq_of_mem_set hm with hm | rfl
          · exact he e hm
          · exact hne
        · rwa [List.length_set]
      · refine ⟨?_, fun e hm => ?_, ?_⟩
        · rw [List.length_append, List.length_singleton]
          simp only [Config.cueListCapacity] at hcap ⊢
          omega
        · rcases List.mem_append.1 hm with hm | hm
          · exact he e hm
          · obtain rfl := List.mem_singleton.1 hm
            exact hne
        · rw [List.length_append]
          exact Nat.le_add_right_of_le hc
  · exact ⟨_, _, .refl s, rfl⟩

theorem keepsBounds_cueListTruncate (s : State) : s.KeepsBounds (s.begin 0x47 cueListTruncate) := by
  refine .answering fun ps => ?_
  unfold cueListTruncate
  dsimp only
  split
  · exact ⟨_, _, .refl s, rfl⟩
  · rename_i hn
    refine ⟨_, _, (Calm.refl s).setCueList _ fun ⟨hl, he, hc⟩ =>
      ⟨?_, fun e hm => he e (List.mem_of_mem_take hm), ?_⟩, rfl⟩
    · exact Nat.le_trans (List.length_take_le' _ _) hl
    · rw [List.length_take]
      dsimp only
      omega

theorem keepsBounds_cueCursor (s : State) : s.KeepsBounds (s.begin 0x48 cueCursor) :=
  .answering fun _ => ⟨_, _, (Calm.refl s).moveCursor _ _ _ fun _ => Nat.min_le_right _ _, rfl⟩

/-- The read position stays within the log where it moves within it (R187). -/
theorem State.Calm.moveReadPos {s t : State} (h : s.Calm t) (n : Nat) (hn : n ≤ t.faultLog.records.length) :
    s.Calm (t.setFaultLog ⟨t.faultLog.records, n⟩) :=
  h.setFaultLog _ fun ⟨hl, hd, hc, _⟩ => ⟨hl, hd, hc, hn⟩

/-- The read position moves on from a record, so not past the end of the log (R188). -/
theorem keepsBounds_readFaults (s : State) : s.KeepsBounds (s.begin 0x50 readFaults) := by
  refine .answering fun ps => ?_
  unfold readFaults
  dsimp only
  split
  · rename_i r hr
    exact ⟨_, _, (Calm.refl s).moveReadPos _ (List.getElem?_eq_some_iff.1 hr).1, rfl⟩
  · exact ⟨_, _, (Calm.refl s).moveReadPos _ (Nat.zero_le _), rfl⟩

theorem keepsBounds_clearFaults (s : State) : s.KeepsBounds (s.begin 0x51 clearFaults) :=
  .answering fun _ =>
    ⟨_, _, (Calm.refl s).setFaultLog _ fun _ => FaultLog.empty_sound, rfl⟩

/-! ### Events -/

theorem calm_keyEventTake : Leads State.Calm .keyEventTake := by
  refine fun s => ⟨_, rfl, ?_⟩
  split
  · exact .refl s
  · rename_i e rest hq
    split
    · refine State.Calm.handle ((Calm.refl s).setWalker _ ?_) e
      rw [hq]
      exact Nat.le_succ _
    · exact .refl s

theorem calm_walkStart (upsets : Upsets) : Leads State.Calm (.walkStart upsets) := by
  refine fun s => ⟨_, rfl, ?_⟩
  split
  · split
    · refine State.Calm.reportAll (State.Calm.setJob ((Calm.refl s).setDirectory _ ?_) _) _
      rfl
    · exact .refl s
  all_goals exact .refl s

theorem calm_walkEnd : Leads State.Calm .walkEnd := by
  refine fun s => ⟨_, rfl, ?_⟩
  split
  · rename_i w rest _
    split
    · split
      · exact .refl s
      · split
        · split
          · exact ((Calm.refl s).walkMissed w).endWalk w rest
          · have making := (Calm.refl s).startMaking w
            dsimp only
            split
            · exact (making.walkOutcome w _).endWalk w rest
            · exact making.setJob _
        · exact (Calm.refl s).endWalk w rest
    · exact ((Calm.refl s).walkOutcome w _).endWalk w rest
    · exact .refl s
  all_goals exact .refl s

theorem calm_crosspointInstall : Leads State.Calm .crosspointInstall := by
  refine fun s => ⟨_, rfl, ?_⟩
  split
  · rename_i w rest _
    split
    · exact (((Calm.refl s).installHit w.tag _).settleCalls w.tag _ _).setJob _
    all_goals exact .refl s
  · exact ((Calm.refl s).install _).setXps _
  · exact .refl s

theorem calm_busyLampRequest (p : Port) (k : Key) : Leads State.Calm (.busyLampRequest p k) := by
  refine fun s => ⟨_, rfl, (Calm.refl s).take fun u => ?_⟩
  split
  · split
    · exact (Calm.refl u).setJob _
    · exact (Calm.refl u).setEntry _ _ _
  all_goals exact (Calm.refl u).setEntry _ _ _

theorem calm_linkReport (p : Port) (report : UplinkReport) : Leads State.Calm (.linkReport p report) := by
  refine fun s => ⟨_, rfl, ?_⟩
  split
  · exact .refl s
  · split
    · exact (Calm.refl s).lostFrame _ _
    · split
      · exact (Calm.refl s).goodFrame _ _
      · exact (Calm.refl s).lostFrame _ _

theorem calm_statePost (p : Port) : Leads State.Calm (.statePost p) := by
  refine fun s => ⟨_, rfl, ?_⟩
  dsimp only
  split
  · rename_i h
    obtain ⟨-, hq, -⟩ := h
    refine ((Calm.refl s).setPort _ _).enqueue _ ?_
    simp only [Config.statePostLimit, State.setPort_walker] at hq ⊢
    omega
  · exact .refl s

theorem calm_missingFrame : Leads State.Calm .missingFrame := by
  refine fun s => ⟨_, rfl, ?_⟩
  split
  · exact .refl s
  · exact (Calm.refl s).setTrunk _
  · exact (Calm.refl s).loseFrame _

theorem calm_removeKey (p : Port) (k : Key) : Leads State.Calm (.removeKey p k) := by
  refine fun s => ⟨_, rfl, ?_⟩
  split
  · exact .refl s
  · split
    · exact (Calm.refl s).setXps _
    · exact .refl s

theorem calm_removePortKeys (p : Port) : Leads State.Calm (.removePortKeys p) := by
  refine fun s => ⟨_, rfl, ?_⟩
  split
  · exact .refl s
  · exact (Calm.refl s).take fun u => ((Calm.refl u).setXps _).hand _

theorem calm_removeCircuit (c : CircuitIx) : Leads State.Calm (.removeCircuit c) := by
  refine fun s => ⟨_, rfl, ?_⟩
  split
  · exact .refl s
  · exact (Calm.refl s).take fun u => (Calm.refl u).setXps _

theorem calm_portRowReset (p : Port) : Leads State.Calm (.portRowReset p) := by
  refine fun s => ⟨_, rfl, ?_⟩
  split
  · exact (Calm.refl s).take fun u => (Calm.refl u).setWalker _ (List.length_filter_le _ _)
  · exact .refl s

theorem calm_lostMarkSet (p : Port) : Leads State.Calm (.lostMarkSet p) := by
  refine fun s => ⟨_, rfl, ?_⟩
  split
  · exact ((Calm.refl s).setRequests _).takeLostMark p true
  · exact .refl s

theorem calm_answer (p : Port) (l : CrewLamp) : Leads State.Calm (.answer p l) := by
  refine fun s => ⟨_, rfl, ?_⟩
  split
  · exact (Calm.refl s).take fun u => ((Calm.refl u).setCircuits _).offerChanges _
  · exact .refl s

theorem calm_standbyTimerExpiry (c : CircuitIx) : Leads State.Calm (.standbyTimerExpiry c) := by
  refine fun s => ⟨_, rfl, ?_⟩
  dsimp only
  split
  · exact ((Calm.refl s).setCircuit _ _).offer _
  · exact .refl s

theorem calm_goHoldExpiry (c : CircuitIx) : Leads State.Calm (.goHoldExpiry c) := by
  refine fun s => ⟨_, rfl, ?_⟩
  dsimp only
  split
  · split
    · exact ((Calm.refl s).setCircuit _ _).offer _
    · exact (Calm.refl s).toIdle _ _
  · exact .refl s

/-- A desk request is carried out by the cue engine or the cue list. -/
theorem calm_desk {i : Instr} (p : Port) (r : DeskRequest) {effect : State → State × Status}
    (hi : ∀ s, exec i s = .next (s.takeDesk p r effect)) (he : ∀ u : State, u.Calm (effect u).1) :
    Leads State.Calm i := fun s => ⟨_, hi s, .takeDesk p r he⟩

/-- A calm command keeps the bounds. -/
theorem Leads.keepsBounds {i : Instr} (h : Leads State.Calm i) : Leads State.KeepsBounds i := fun s =>
  have ⟨t, ht, hc⟩ := h s
  ⟨t, ht, hc.keepsBounds⟩

theorem keepsBounds_portResync (p : Port) : Leads State.KeepsBounds (.portResync p) := by
  refine fun s => ⟨_, rfl, .take s fun u => State.Calm.resetTaken ?_⟩
  split
  · exact (Calm.refl u).setPort _ _
  · exact .refl u

theorem keepsBounds_walkerReset : Leads State.KeepsBounds .walkerReset := by
  refine fun s => ⟨_, rfl, .take s fun u => State.Calm.resetTaken ((Calm.refl u).setWalker _ ?_)⟩
  exact Nat.le_refl _

/-! ### All of them -/

theorem leads_keepsBounds (i : Instr) : Leads State.KeepsBounds i := by
  cases i with
  | pinReset straps => exact keepsBounds_pinReset straps
  | ramInitialisationEnd => exact keepsBounds_ramInitialisationEnd
  | frameStart => exact keepsBounds_frameStart
  | trunkArrival bytes => exact keepsBounds_trunkArrival bytes
  | missingFrame => exact calm_missingFrame.keepsBounds
  | linkReport p report => exact (calm_linkReport p report).keepsBounds
  | statePost p => exact (calm_statePost p).keepsBounds
  | keyEventTake => exact calm_keyEventTake.keepsBounds
  | walkStart upsets => exact (calm_walkStart upsets).keepsBounds
  | walkEnd => exact calm_walkEnd.keepsBounds
  | busyLampRequest p k => exact (calm_busyLampRequest p k).keepsBounds
  | crosspointInstall => exact calm_crosspointInstall.keepsBounds
  | removeKey p k => exact (calm_removeKey p k).keepsBounds
  | removePortKeys p => exact (calm_removePortKeys p).keepsBounds
  | removeCircuit c => exact (calm_removeCircuit c).keepsBounds
  | removeKeysAndCues =>
    exact fun s => ⟨_, rfl, .take s fun u => ((((Calm.refl u).setXps _).hand _).hand _).keepsBounds⟩
  | portRowReset p => exact (calm_portRowReset p).keepsBounds
  | lostMarkSet p => exact (calm_lostMarkSet p).keepsBounds
  | lostMarkClear p => exact fun s => ⟨_, rfl, ((Calm.refl s).takeLostMark p false).keepsBounds⟩
  | standbyRequest p c => exact (calm_desk p _ (fun _ => rfl) fun u => (Calm.refl u).standby c none).keepsBounds
  | goRequest p c => exact (calm_desk p _ (fun _ => rfl) fun u => (Calm.refl u).go c none).keepsBounds
  | cancelRequest p c => exact (calm_desk p _ (fun _ => rfl) fun u => (Calm.refl u).cancel c).keepsBounds
  | answer p l => exact (calm_answer p l).keepsBounds
  | standbyTimerExpiry c => exact (calm_standbyTimerExpiry c).keepsBounds
  | goHoldExpiry c => exact (calm_goHoldExpiry c).keepsBounds
  | goNext p => exact (calm_desk p _ (fun _ => rfl) fun u => (Calm.refl u).goNext).keepsBounds
  | standbyNext p => exact (calm_desk p _ (fun _ => rfl) fun u => (Calm.refl u).standbyNext).keepsBounds
  | back p => exact (calm_desk p _ (fun _ => rfl) fun u => (Calm.refl u).back).keepsBounds
  | skip p => exact (calm_desk p _ (fun _ => rfl) fun u => (Calm.refl u).skip).keepsBounds
  | unknownCommand => exact keepsBounds_unknownCommand
  | identify => exact fun s => ⟨_, rfl, keepsBounds_read s _ _⟩
  | softReset => exact keepsBounds_softReset
  | walkerReset => exact keepsBounds_walkerReset
  | circuitAbort => exact fun s => ⟨_, rfl, .take s fun u => ((Calm.refl u).abortCircuits _).resetTaken⟩
  | portResync p => exact keepsBounds_portResync p
  | portSetup => exact fun s => ⟨_, rfl, keepsBounds_portSetup s⟩
  | portStatus => exact fun s => ⟨_, rfl, keepsBounds_read s _ _⟩
  | laneMap => exact fun s => ⟨_, rfl, .answering fun _ => ⟨_, _, (Calm.refl s).setTrunk _, rfl⟩⟩
  | slotEnable => exact fun s => ⟨_, rfl, keepsBounds_slotEnable s⟩
  | slotRetire => exact fun s => ⟨_, rfl, keepsBounds_slotRetire s⟩
  | installCrosspoint => exact fun s => ⟨_, rfl, keepsBounds_installCrosspoint s⟩
  | removeCrosspoint => exact fun s => ⟨_, rfl, keepsBounds_removeCrosspoint s⟩
  | setGain => exact fun s => ⟨_, rfl, keepsBounds_setGain s⟩
  | readSlot => exact fun s => ⟨_, rfl, keepsBounds_read s _ _⟩
  | directorySetup => exact keepsBounds_directorySetup
  | writeRecords => exact keepsBounds_writeRecords
  | readRecord upsets => exact keepsBounds_readRecord upsets
  | selectScene => exact keepsBounds_selectScene
  | tablePortGrant upsets => exact keepsBounds_tablePortGrant upsets
  | recordWrite => exact keepsBounds_recordWrite
  | loadTimerExpiry => exact keepsBounds_loadTimerExpiry
  | retryKey => exact fun s => ⟨_, rfl, keepsBounds_retryKey s⟩
  | circuitSetup => exact fun s => ⟨_, rfl, keepsBounds_circuitSetup s⟩
  | readCircuit => exact fun s => ⟨_, rfl, keepsBounds_read s _ _⟩
  | cueStandby => exact fun s => ⟨_, rfl, keepsBounds_cueCommand s _ fun c => (Calm.refl s).standby c none⟩
  | cueGo => exact fun s => ⟨_, rfl, keepsBounds_cueCommand s _ fun c => (Calm.refl s).go c none⟩
  | cueCancel => exact fun s => ⟨_, rfl, keepsBounds_cueCommand s _ fun c => (Calm.refl s).cancel c⟩
  | cueNext => exact fun s => ⟨_, rfl, keepsBounds_cueNext s⟩
  | cueListWrite => exact fun s => ⟨_, rfl, keepsBounds_cueListWrite s⟩
  | cueListTruncate => exact fun s => ⟨_, rfl, keepsBounds_cueListTruncate s⟩
  | cueCursor => exact fun s => ⟨_, rfl, keepsBounds_cueCursor s⟩
  | readCueList => exact fun s => ⟨_, rfl, keepsBounds_read s _ _⟩
  | readLastCue => exact fun s => ⟨_, rfl, keepsBounds_read s _ _⟩
  | readFaults => exact fun s => ⟨_, rfl, keepsBounds_readFaults s⟩
  | clearFaults => exact fun s => ⟨_, rfl, keepsBounds_clearFaults s⟩
  | lockShow => exact fun s => ⟨_, rfl, s.keepsBounds_setLock _ _⟩
  | unlockShow => exact fun s => ⟨_, rfl, s.keepsBounds_setLock _ _⟩
  | freezeShow => exact fun s => ⟨_, rfl, s.keepsBounds_setLock _ _⟩
  | faultReport kind loc =>
    exact fun s => ⟨_, rfl, .take s fun u => ((Calm.refl u).logFault kind loc).keepsBounds⟩

/-- Settles O57: every command keeps the four bounds, by `State.Calm` up to what it places in a queue. -/
theorem queuesListsAndLogStaySound : Obligations.QueuesListsAndLogStaySound := by
  have kept {P : State → Prop} (hp : ∀ s q, P s → P (s.setPending q))
      (hk : ∀ s t : State, s.KeepsBounds t → P s → P t) : Kept P :=
    kept_of_leads hp fun i s =>
      have ⟨t, ht, h⟩ := leads_keepsBounds i s
      ⟨t, ht, hk s t h⟩
  exact ⟨kept (fun _ _ h => h) fun _ _ h => h.queues, kept (fun _ _ h => h) fun _ _ h => h.log,
    kept (fun _ _ h => h) fun _ _ h => h.list, kept (fun _ _ h => h) fun _ _ h => h.lock⟩

end Sys2Proof.Machine
end

section
/-!
PROOFS, the events that the walker takes (R62 to R67): O19 to O22.
-/

namespace Sys2Proof.Machine

/-! ### The event at the head of the queue (R62) -/

/-- An entry set is read back, and every other is as before. -/
theorem State.entry_setEntry (s : State) (p : Port) (k : Key) (e : KeyEntry) (q : Port) (i : Key) :
    (s.setEntry p k e).entry q i = if q = p ∧ i = k then e else s.entry q i := by
  rw [State.entry_eq, State.setEntry_walker]
  split
  · rename_i h
    rw [h.1, h.2, Walker.setEntry_entry_same]
  · exact Walker.setEntry_entry_other _ (by tauto) _

/-- An idle walker that is left idle. -/
theorem State.setJob_of_idle {s : State} (h : s.walker.job = .idle) : s.setJob .idle = s :=
  congrArg (fun j => s.setWalker { s.walker with job := j }) h.symm

theorem State.workOn_done {s : State} (h : s.walker.job = .idle) : State.workOn (s, .done) = s :=
  State.setJob_of_idle h

section
variable {s : State} {p : Port} {k : Key} {stamp : Stamp} {rest : List KeyEvent}

/-- A key of an event taken leaves every slot and is OFF, the counts of its call list lowered (R66). -/
theorem State.removeKey_withQueue (s : State) (rest : List KeyEvent) (p : Port) (k : Key) (swallow : Bool) :
    ∃ calls : Vector Nat 16, (∀ q : Port, calls[q] = s.walker.calls[q] - (s.entry p k).calls.count q)
      ∧ (s.withQueue rest).removeKey p k swallow = ((s.setXps (s.xps.remove fun o => o == .key p k)).setWalker
          { s.walker with queue := rest, calls := calls }).setEntry p k { s.entry p k with
            state := .off, lamp := .off, swallow := (s.entry p k).swallow || swallow, calls := [] } :=
  ⟨lowerCalls s.walker.calls (s.entry p k).calls, lowerCalls_get _ _, rfl⟩

theorem exec_keyEventTake_of_empty (hq : s.walker.queue = []) : exec .keyEventTake s = .next s := by
  refine congrArg Host.Outcome.next ?_
  rw [hq]

theorem exec_keyEventTake_of_not_ready (h : ¬ s.walkerReady) : exec .keyEventTake s = .next s := by
  rw [← State.mayTake_iff] at h
  refine congrArg Host.Outcome.next ?_
  split
  · rfl
  · exact if_neg h

/-- An event that is skipped leaves the queue (R62). -/
theorem exec_keyEventTake_of_skipped {e : KeyEvent} (hq : s.walker.queue = e :: rest) (hr : s.walkerReady)
    (he : (s.withQueue rest).handle e = s.withQueue rest) : exec .keyEventTake s = .next (s.withQueue rest) :=
  (exec_keyEventTake_of_ready hq (s.mayTake_iff.2 hr)).trans (congrArg Host.Outcome.next he)

theorem exec_press (hq : s.walker.queue = .press p k stamp :: rest) (hr : s.walkerReady)
    (hup : s.ports[p].link = .up) :
    exec .keyEventTake s = .next (State.workOn ((s.withQueue rest).press p k stamp)) := by
  rw [exec_keyEventTake_of_ready hq (s.mayTake_iff.2 hr)]
  exact congrArg Host.Outcome.next (if_pos (beq_iff_eq.2 hup))

theorem exec_release (hq : s.walker.queue = .release p k stamp :: rest) (hr : s.walkerReady)
    (hup : s.ports[p].link = .up) :
    exec .keyEventTake s = .next (State.workOn ((s.withQueue rest).release p k stamp)) := by
  rw [exec_keyEventTake_of_ready hq (s.mayTake_iff.2 hr)]
  exact congrArg Host.Outcome.next (if_pos (beq_iff_eq.2 hup))

/-- A release that leaves no walk to do. -/
theorem exec_release_done (hq : s.walker.queue = .release p k stamp :: rest) (hr : s.walkerReady)
    (hup : s.ports[p].link = .up) {t : State} (ht : (s.withQueue rest).release p k stamp = (t, .done))
    (hj : t.walker.job = s.walker.job) : exec .keyEventTake s = .next t := by
  rw [exec_release hq hr hup, ht, State.workOn_done (hj.trans hr.1)]

/-! ### A press and a release by the state of the key (R64, R65) -/

theorem State.press_off (h : (s.entry p k).state = .off ∨ (s.entry p k).state = .missed
    ∨ (s.entry p k).state = .refused) :
    s.press p k stamp =
      (s.setEntry p k { s.entry p k with swallow := false, stamp := stamp }, .walk (.key p k) false) := by
  unfold State.press
  dsimp only
  rcases h with h | h | h <;> rw [h]

theorem State.press_held (h : (s.entry p k).state = .held) : s.press p k stamp = (s, .done) := by
  simp only [State.press, h]

theorem State.press_latched (h : (s.entry p k).state = .latched) :
    s.press p k stamp = (s.removeKey p k true, .done) := by
  simp only [State.press, h]

theorem State.release_swallowed (h : (s.entry p k).swallow = true) :
    s.release p k stamp = (s.setEntry p k { s.entry p k with swallow := false }, .done) := by
  unfold State.release
  dsimp only
  exact if_pos h

theorem State.release_held (hs : (s.entry p k).swallow = false) (h : (s.entry p k).state = .held) :
    s.release p k stamp = s.releaseHeld p k stamp := by
  simp only [State.release, hs, h, Bool.false_eq_true, if_false]

theorem State.release_failed (hs : (s.entry p k).swallow = false)
    (h : (s.entry p k).state = .missed ∨ (s.entry p k).state = .refused) :
    s.release p k stamp = (s.setEntry p k (s.entry p k).toOff, .done) := by
  rcases h with h | h <;> simp only [State.release, hs, h, Bool.false_eq_true, if_false]

theorem State.release_stays (hs : (s.entry p k).swallow = false)
    (h : (s.entry p k).state = .off ∨ (s.entry p k).state = .latched) : s.release p k stamp = (s, .done) := by
  rcases h with h | h <;> simp only [State.release, hs, h, Bool.false_eq_true, if_false]

theorem State.releaseHeld_goes (h : (s.entry p k).mode = .momentary ∨ (s.entry p k).mode = .auto
    ∧ 6400 ≤ (stamp - (s.entry p k).stamp).toNat) :
    s.releaseHeld p k stamp = (s.removeKey p k false, .done) :=
  if_pos ((KeyEntry.letsGo_iff _ _).2 h)

theorem State.releaseHeld_latches (h : (s.entry p k).mode = .latching ∨ (s.entry p k).mode = .auto
    ∧ (stamp - (s.entry p k).stamp).toNat < 6400) :
    s.releaseHeld p k stamp = (s.setEntry p k { s.entry p k with state := .latched }, .done) := by
  refine if_neg fun hg => ?_
  rcases (KeyEntry.letsGo_iff _ _).1 hg with hm | ⟨hm, hs⟩ <;> rcases h with h | ⟨h, hs'⟩
  · rw [h] at hm; cases hm
  · rw [h] at hm; cases hm
  · rw [h] at hm; cases hm
  · omega

/-- Settles O19: the press by the state of its key. -/
theorem keyPressTaken : Obligations.KeyPressTaken := by
  refine ⟨fun s p k e j => ⟨rfl, rfl, rfl, s.entry_setEntry p k e⟩, fun s p k stamp rest hq hr hup => ?_⟩
  have pressed := exec_press hq hr hup
  refine ⟨fun h => ?_, fun h => ?_, fun h => ?_⟩
  · rw [pressed, State.press_off (s := s.withQueue rest) h]
    rfl
  · rw [pressed, State.press_held (s := s.withQueue rest) h]
    exact congrArg Host.Outcome.next (State.workOn_done hr.1)
  · obtain ⟨calls, hcalls, e⟩ := s.removeKey_withQueue rest p k true
    refine ⟨calls, hcalls, ?_⟩
    rw [pressed, State.press_latched (s := s.withQueue rest) h, e, Bool.or_true]
    exact congrArg Host.Outcome.next (State.workOn_done hr.1)

/-- Settles O20: the release by swallow-release, the state of its key and its mode. -/
theorem keyReleaseTaken : Obligations.KeyReleaseTaken := by
  intro s p k stamp rest hq hr hup
  have removed (hs : (s.entry p k).swallow = false) (hh : (s.entry p k).state = .held)
      (hg : (s.entry p k).mode = .momentary ∨ (s.entry p k).mode = .auto
        ∧ 6400 ≤ (stamp - (s.entry p k).stamp).toNat) :
      ∃ t, exec .keyEventTake s = .next t ∧ ∃ calls : Vector Nat 16,
        (∀ q : Port, calls[q] = s.walker.calls[q] - (s.entry p k).calls.count q)
        ∧ t = ((s.setXps (s.xps.remove fun o => o == .key p k)).setWalker
          { s.walker with queue := rest, calls := calls }).setEntry p k { s.entry p k with
            state := .off, lamp := .off, calls := [] } := by
    obtain ⟨calls, hcalls, e⟩ := s.removeKey_withQueue rest p k false
    rw [Bool.or_false] at e
    refine ⟨(s.withQueue rest).removeKey p k false, exec_release_done hq hr hup ?_ rfl, calls, hcalls, e⟩
    exact (State.release_held (s := s.withQueue rest) hs hh).trans (State.releaseHeld_goes hg)
  have latched (hs : (s.entry p k).swallow = false) (hh : (s.entry p k).state = .held)
      (hl : (s.entry p k).mode = .latching ∨ (s.entry p k).mode = .auto
        ∧ (stamp - (s.entry p k).stamp).toNat < 6400) :
      exec .keyEventTake s = .next ((s.withQueue rest).setEntry p k { s.entry p k with state := .latched }) := by
    refine exec_release_done hq hr hup ?_ rfl
    exact (State.release_held (s := s.withQueue rest) hs hh).trans (State.releaseHeld_latches hl)
  refine ⟨fun hs => ?_, fun hs => ⟨fun hh hm => removed hs hh (.inl hm), fun hh hm => latched hs hh (.inl hm),
    fun hh hm ht => latched hs hh (.inr ⟨hm, ht⟩), fun hh hm ht => removed hs hh (.inr ⟨hm, ht⟩), fun h => ?_,
    fun h => ?_⟩⟩
  · exact exec_release_done hq hr hup (State.release_swallowed (s := s.withQueue rest) hs) rfl
  · exact exec_release_done hq hr hup (State.release_failed (s := s.withQueue rest) hs h) rfl
  · exact exec_release_done hq hr hup (State.release_stays (s := s.withQueue rest) hs h) rfl

end

/-! ### The other events (R62) -/

theorem KeyEvent.ofPort_iff {p : Port} {e : KeyEvent} : e.ofPort p = true ↔ (∃ k stamp, e = .press p k stamp)
    ∨ (∃ k stamp, e = .release p k stamp) ∨ (∃ bitmap stamp, e = .state p bitmap stamp) ∨ ∃ k, e = .retry p k := by
  constructor
  · intro h
    cases e <;> simp_all [KeyEvent.ofPort]
  · rintro (⟨_, _, rfl⟩ | ⟨_, _, rfl⟩ | ⟨_, _, rfl⟩ | ⟨_, rfl⟩) <;> exact beq_self_eq_true p

theorem KeyEntry.failed_iff (e : KeyEntry) : e.failed = true ↔ e.state = .missed ∨ e.state = .refused := by
  simp [KeyEntry.failed]

/-- An event of a port that is not UP is skipped. -/
theorem State.handle_of_not_up {s : State} {p : Port} {e : KeyEvent} (he : e.ofPort p = true)
    (h : s.ports[p].link ≠ .up) : s.handle e = s := by
  have down : ¬ s.isUp p = true := fun hu => h (beq_iff_eq.1 hu)
  rcases KeyEvent.ofPort_iff.1 he with ⟨_, _, rfl⟩ | ⟨_, _, rfl⟩ | ⟨_, _, rfl⟩ | ⟨_, rfl⟩
  · exact if_neg down
  · exact if_neg down
  · exact if_neg down
  · exact if_neg fun h => down h.1

/-- Settles O21, by the event at the head of the queue. -/
theorem eventsSkippedOrWalked : Obligations.EventsSkippedOrWalked := by
  refine ⟨fun p e => KeyEvent.ofPort_iff, fun s => ⟨fun h => ?_, fun e rest hq hr => ?_⟩⟩
  · rcases h with h | h | h
    · exact exec_keyEventTake_of_empty h
    · exact exec_keyEventTake_of_not_ready fun hr => h hr.1
    · refine exec_keyEventTake_of_not_ready fun ⟨_, hi, _⟩ => ?_
      rw [h] at hi
      cases hi
  · have taken := exec_keyEventTake_of_ready hq (s.mayTake_iff.2 hr)
    refine ⟨fun p he hn => ?_, fun c he hc => ?_, fun c he hc => ?_, fun p k he hup => ⟨fun hf => ?_, fun hm hf => ?_⟩,
      fun p bitmap stamp he hup => ?_⟩
    · exact exec_keyEventTake_of_skipped hq hr (State.handle_of_not_up (s := s.withQueue rest) he hn)
    · subst he
      exact exec_keyEventTake_of_skipped hq hr (if_pos hc)
    · subst he
      exact taken.trans (congrArg Host.Outcome.next (if_neg hc))
    · subst he
      have failed := (KeyEntry.failed_iff _).2 hf
      exact taken.trans (congrArg Host.Outcome.next (if_pos ⟨beq_iff_eq.2 hup, failed⟩))
    · subst he
      refine exec_keyEventTake_of_skipped hq hr (if_neg fun h => ?_)
      exact ((KeyEntry.failed_iff _).1 h.2).elim hm hf
    · subst he
      exact taken.trans (congrArg Host.Outcome.next (if_pos (beq_iff_eq.2 hup)))

/-! ### The keys of a STATE (R67) -/

section
variable {s : State} {l : KeyLevel} {rest : List KeyLevel}

theorem State.applyLevels_of_done {t : State} (h : s.applyLevel l = (t, .done)) :
    s.applyLevels (l :: rest) = t.applyLevels rest := by
  simp only [State.applyLevels, h]

theorem State.applyLevels_of_walk {t : State} {tag : Tag} {retry : Bool}
    (h : s.applyLevel l = (t, .walk tag retry)) :
    s.applyLevels (l :: rest) = t.setJob (.waiting tag retry rest) := by
  simp only [State.applyLevels, h]

/-- A key that is down calls for a walk where it is OFF with swallow-release clear. -/
theorem State.applyLevel_walk (hd : l.down = true) (ho : (s.entry l.port l.key).state = .off)
    (hs : (s.entry l.port l.key).swallow = false) : s.applyLevel l =
      (s.setEntry l.port l.key { s.entry l.port l.key with stamp := l.stamp }, .walk (.key l.port l.key) false) := by
  have clear : ({ s.entry l.port l.key with swallow := false, stamp := l.stamp } : KeyEntry)
      = { s.entry l.port l.key with stamp := l.stamp } := by
    rw [← hs]
  have unswallowed : ¬ (s.entry l.port l.key).swallow = true := by
    rw [hs]
    decide
  have pressed : s.applyLevel l = s.press l.port l.key l.stamp := by
    simp only [State.applyLevel, if_pos hd, ho, if_neg unswallowed]
  rw [pressed, State.press_off (.inl ho), clear]

end

/-- Settles O22: the first key by what its level decides, the rest by the recursion of `State.applyLevels`. -/
theorem stateKeysApplied : Obligations.StateKeysApplied := by
  intro s p k down stamp rest e levels then' removed
  have kept (hd : down = false) (h : s.decides ⟨p, k, down, stamp⟩ = false) :
      s.applyLevels levels = then' e.released := State.applyLevels_of_done (State.applyLevel_kept hd h)
  have stays (hd : down = false) (h : e.state ≠ .held) : s.decides ⟨p, k, down, stamp⟩ = false := by
    simp only [State.decides, hd, Bool.false_eq_true, if_false, Bool.and_eq_false_iff, beq_eq_false_iff_ne]
    exact .inl h
  have gone (hd : down = false) (hh : e.state = .held)
      (hg : e.mode = .momentary ∨ e.mode = .auto ∧ 6400 ≤ (stamp - e.stamp).toNat) :
      removed (s.applyLevels levels) := by
    have decides : s.decides ⟨p, k, down, stamp⟩ = true := by
      simp only [State.decides, hd, Bool.false_eq_true, if_false, Bool.and_eq_true, beq_iff_eq]
      exact ⟨hh, (KeyEntry.letsGo_iff _ _).2 hg⟩
    obtain ⟨calls, hcalls, he⟩ := s.removeKey_withQueue s.walker.queue p k false
    rw [Bool.or_false] at he
    refine ⟨calls, hcalls, (State.applyLevels_of_done (State.applyLevel_letsGo hd decides)).trans ?_⟩
    exact congrArg (State.applyLevels rest) he
  have latched (hd : down = false) (hh : e.state = .held)
      (hl : e.mode = .latching ∨ e.mode = .auto ∧ (stamp - e.stamp).toNat < 6400) :
      s.applyLevels levels = then' { e with state := .latched } := by
    refine (kept hd ?_).trans (by simp only [KeyEntry.released, hh])
    simp only [State.decides, hd, Bool.false_eq_true, if_false, Bool.and_eq_false_iff]
    refine .inr (Bool.eq_false_iff.2 fun hg => ?_)
    rcases (KeyEntry.letsGo_iff _ _).1 hg with hm | ⟨hm, hs⟩
    · rcases hl with h | ⟨h, -⟩ <;> exact absurd (h.symm.trans hm) (by decide)
    · rcases hl with h | ⟨-, h⟩
      · exact absurd (h.symm.trans hm) (by decide)
      · exact absurd hs (Nat.not_le.2 h)
  refine ⟨rfl, fun hd => ⟨fun ho hs => ?_, fun h => ?_⟩, fun hd => ⟨fun hh => ⟨fun hm => gone hd hh (.inl hm),
    fun hm => latched hd hh (.inl hm), fun hm ht => latched hd hh (.inr ⟨hm, ht⟩),
    fun hm ht => gone hd hh (.inr ⟨hm, ht⟩)⟩, fun h => ?_, fun h => ?_⟩⟩
  · exact State.applyLevels_of_walk (State.applyLevel_walk hd ho hs)
  · refine State.applyLevels_of_done (State.applyLevel_down hd ?_)
    simp only [State.decides, hd, if_true, Bool.and_eq_false_iff, Bool.not_eq_false', beq_eq_false_iff_ne]
    exact h
  · rcases h with h | h <;> refine (kept hd (stays hd (by rw [h]; decide))).trans ?_ <;>
      simp only [KeyEntry.released, h] <;> rfl
  · rcases h with h | h <;> refine (kept hd (stays hd (by rw [h]; decide))).trans ?_ <;>
      simp only [KeyEntry.released, h]

end Sys2Proof.Machine
end

section
/-!
PROOFS, the walks that act (R71 to R78): O25 to O27, and the installs that they send: O30.
-/

namespace Sys2Proof.Machine

/-- The walk's EXCESS_HITS, where hits were ignored (R76). -/
def Walk.excess (w : Walk) (t : State) : State :=
  match w.reading.firstIgnored with
  | some i => t.offer (.pathMiss w.tag .excessHits i w.reading.visited w.reading.ignored)
  | none => t

section
variable {s : State} {w : Walk} {rest : List KeyLevel}

/-! ### The outcome (R73, R74, R76) -/

theorem State.walkOutcome_key {p : Port} {k : Key} (ht : w.tag = .key p k) (ok : Bool) : s.walkOutcome w ok =
    w.excess (if ok then s.setEntry p k { s.entry p k with
        state := .held, lamp := if w.busyHeld then .busy else .on }
      else (s.setEntry p k { s.entry p k with state := .refused, lamp := .busy }).report .slotExhausted (.port p)) := by
  obtain ⟨tag, retry, reading, phase, busyHeld, suppressed⟩ := w
  cases ht
  rfl

theorem State.walkOutcome_cue {c : CircuitIx} (ht : w.tag = .cue c) (ok : Bool) : s.walkOutcome w ok =
    w.excess (if ok then s else s.report .slotExhausted (.circuit c)) := by
  obtain ⟨tag, retry, reading, phase, busyHeld, suppressed⟩ := w
  cases ht
  rfl

theorem exec_walkEnd_of_made {ok : Bool} (hj : s.walker.job = .walking w rest) (hp : w.phase = .making [] ok) :
    exec .walkEnd s = .next ((s.walkOutcome w ok).endWalk w rest) := by
  show execWalkEnd s = _
  simp only [execWalkEnd, hj, hp]

/-- Settles O27: the outcome by the tag of the walk and by whether a hit succeeded. -/
theorem walkOutcomes : Obligations.WalkOutcomes := by
  intro s w rest ok hj hp excess
  have ends := exec_walkEnd_of_made hj hp
  refine ⟨fun p k ht => ?_, fun c ht => ?_⟩
  · rw [State.walkOutcome_key ht] at ends
    exact ⟨fun h => by rw [ends, h]; rfl, fun h => by rw [ends, h]; rfl⟩
  · rw [State.walkOutcome_cue ht] at ends
    exact ⟨fun h => by rw [ends, h]; rfl, fun h => by rw [ends, h]; rfl⟩

/-! ### The decision to act (R71, R72, R75) -/

theorem exec_walkEnd_of_missed (hj : s.walker.job = .walking w rest) (hp : w.phase = .read)
    (hd : s.decisionHeld w.tag = false) (ha : s.walkActs w = true) (hh : w.reading.hits = []) :
    exec .walkEnd s = .next ((s.walkMissed w).endWalk w rest) := by
  show execWalkEnd s = _
  simp only [execWalkEnd, hj, hp, hd, ha, hh, List.isEmpty_nil, if_true, Bool.false_eq_true, if_false]

/-- A walk with hits begins to make them good, and ends at once where none is left for the crosspoint set. -/
theorem exec_walkEnd_of_hits (hj : s.walker.job = .walking w rest) (hp : w.phase = .read)
    (hd : s.decisionHeld w.tag = false) (ha : s.walkActs w = true) (hh : w.reading.hits ≠ [])
    {t : State} {left : List Hit} {ok : Bool} (hm : s.startMaking w = (t, left, ok)) :
    (left = [] → exec .walkEnd s = .next ((t.walkOutcome w ok).endWalk w rest))
      ∧ (left ≠ [] → exec .walkEnd s = .next (t.setJob (.walking { w with phase := .making left ok } rest))) := by
  have some : ¬ w.reading.hits.isEmpty = true := by simpa using hh
  have begins : exec .walkEnd s = .next (if left.isEmpty then (t.walkOutcome w ok).endWalk w rest
      else t.setJob (.walking { w with phase := .making left ok } rest)) := by
    show execWalkEnd s = _
    simp only [execWalkEnd, hj, hp, hd, ha, hm, if_neg some, if_true, Bool.false_eq_true, if_false]
  refine ⟨fun hl => ?_, fun hl => ?_⟩
  · rw [begins, if_pos (by simpa using hl)]
  · rw [begins, if_neg (by simpa using hl)]

/-- The reason of a PATH_MISS by the end of the reading and the first unarmed match (R75). -/
theorem Reading.miss_eq (r : Reading) : r.miss = match r.ending, r.firstUnarmed with
    | .poisoned i, _ => (.poisoned, i)
    | .chainLimit i, _ => (.chainLimit, i)
    | .invalid i, none => if r.visited = 1 then (.emptyHome, i) else (.noMatch, r.lastValid.getD r.home)
    | .invalid i, some j => if r.visited = 1 then (.emptyHome, i) else (.unarmed, j)
    | .chainEnd, some j => (.unarmed, j)
    | .chainEnd, none => (.noMatch, r.lastValid.getD r.home) := by
  unfold Reading.miss
  cases r.ending <;> cases r.firstUnarmed <;> rfl

theorem State.walkMissed_key {p : Port} {k : Key} (ht : w.tag = .key p k) : s.walkMissed w =
    (s.setEntry p k { s.entry p k with state := .missed, lamp := .miss, mode := .momentary }).offer
      (.pathMiss w.tag w.reading.miss.1 w.reading.miss.2 w.reading.visited w.reading.ignored) := by
  obtain ⟨tag, retry, reading, phase, busyHeld, suppressed⟩ := w
  cases ht
  rfl

theorem State.walkMissed_cue {c : CircuitIx} (ht : w.tag = .cue c) : s.walkMissed w =
    s.offer (.pathMiss w.tag w.reading.miss.1 w.reading.miss.2 w.reading.visited w.reading.ignored) := by
  obtain ⟨tag, retry, reading, phase, busyHeld, suppressed⟩ := w
  cases ht
  rfl

/-- Settles O25: the walk acts, and its reason is the table's. -/
theorem walkWithoutHits : Obligations.WalkWithoutHits := by
  intro s w rest hj hp hs hd hh miss notice
  have missed (ha : s.walkActs w = true) := exec_walkEnd_of_missed hj hp hd ha hh
  have reason : w.reading.miss = miss := w.reading.miss_eq
  refine ⟨fun p k ht hup hretry => ?_, fun c ht hc => ?_⟩
  · rw [missed ((State.walkActs_key_iff ht).2 ⟨hs, hup, hretry⟩), State.walkMissed_key ht, reason]
  · rw [missed ((State.walkActs_cue_iff ht).2 ⟨hs, hc⟩), State.walkMissed_cue ht, reason]

/-! ### Hits made good (R72, R78) -/

/-- A circuit's walk has no CALL hits to make good. -/
theorem State.settleCalls_cue (c : CircuitIx) (hs : List Hit) (ok : Bool) (s : State) :
    State.settleCalls (.cue c) hs ok s = (s, hs, ok) := by
  cases hs <;> rfl

theorem State.startMaking_cue {c : CircuitIx} (ht : w.tag = .cue c) :
    s.startMaking w = (s, w.reading.hits, false) := by
  obtain ⟨tag, retry, reading, phase, busyHeld, suppressed⟩ := w
  cases ht
  exact State.settleCalls_cue _ _ _ _

/-- Two changes of a key entry with a change of the call counts between them. -/
theorem State.setEntry_calls_setEntry (s : State) (p : Port) (k : Key) (d e : KeyEntry) (counts : Vector Nat 16) :
    ((s.setEntry p k d).setWalker { (s.setEntry p k d).walker with calls := counts }).setEntry p k e =
      (s.setWalker { s.walker with calls := counts }).setEntry p k e :=
  congrArg s.setWalker (Walker.setEntry_setEntry { s.walker with calls := counts } p k d e)

theorem Reading.mode_cons {r : Reading} {h : Hit} {hs : List Hit} (hh : r.hits = h :: hs) :
    r.mode = (KeyMode.decode h.content.mode).getD .momentary := by
  rw [Reading.mode, hh]
  rfl

/-- A key takes the mode of its first hit and is HELD; its CALL hits up to the first install are made good. -/
theorem State.startMaking_key {p : Port} {k : Key} (ht : w.tag = .key p k) {calls left : List Hit} {ports : List Port}
    (hh : w.reading.hits = calls ++ left)
    (hc : (calls.map fun x => (x.content.cls.toNat, Endpoint.decode x.content.dest))
      = ports.map (fun q => (3, some (.port q))))
    (hl : ∀ x, left.head? = some x → x.content.cls.toNat ≠ 3) :
    ∃ counts : Vector Nat 16, (∀ q : Port, counts[q] = s.walker.calls[q] + ports.count q) ∧
      s.startMaking w = ((s.setWalker { s.walker with calls := counts }).setEntry p k { s.entry p k with
        mode := w.reading.mode, state := .held, calls := (s.entry p k).calls ++ ports }, left, !ports.isEmpty) := by
  obtain ⟨counts, hcounts, e⟩ := State.settleCalls_key p k calls left ports false
    (s.setEntry p k { s.entry p k with mode := w.reading.mode, state := .held }) hc hl
  refine ⟨counts, hcounts, ?_⟩
  have begun : s.startMaking w = State.settleCalls (.key p k) w.reading.hits false
      (s.setEntry p k { s.entry p k with mode := w.reading.mode, state := .held }) := by
    obtain ⟨tag, retry, reading, phase, busyHeld, suppressed⟩ := w
    cases ht
    rfl
  rw [begun, hh, e, State.setEntry_calls_setEntry, State.entry_setEntry, if_pos ⟨rfl, rfl⟩, Bool.false_or]

/-- Settles O26: a key's walk by what is left after its CALL hits, a circuit's walk with every hit left. -/
theorem walkBeginsInstalls : Obligations.WalkBeginsInstalls := by
  intro s w rest h hs hj hp hsup hd hh
  have hits : w.reading.hits ≠ [] := by rw [hh]; exact List.cons_ne_nil _ _
  refine ⟨fun p k calls left ports ht hup hretry hsplit hc hl => ?_, fun c ht hc => ?_⟩
  · have acts := (State.walkActs_key_iff ht).2 ⟨hsup, hup, hretry⟩
    obtain ⟨counts, hcounts, e⟩ := State.startMaking_key (s := s) ht (hh.trans hsplit) hc hl
    obtain ⟨ends, goes⟩ := exec_walkEnd_of_hits hj hp hd acts hits e
    rw [Reading.mode_cons hh] at ends goes
    refine ⟨counts, hcounts, goes, fun hleft => ?_⟩
    have called : (!ports.isEmpty) = true := by
      subst hleft
      cases ports with
      | cons q ports => rfl
      | nil =>
        obtain rfl : calls = [] := List.map_eq_nil_iff.1 hc
        cases hsplit
    rw [ends hleft, State.walkOutcome_key ht, if_pos called, State.entry_setEntry, if_pos ⟨rfl, rfl⟩]
    refine congrArg (fun t => Host.Outcome.next ((w.excess t).endWalk w rest)) ?_
    exact congrArg s.setWalker (Walker.setEntry_setEntry { s.walker with calls := counts } p k _ _)
  · have acts := (State.walkActs_cue_iff ht).2 ⟨hsup, hc⟩
    have goes := (exec_walkEnd_of_hits hj hp hd acts hits (State.startMaking_cue ht)).2 hits
    rw [hh] at goes
    exact goes

/-! ### Installs (R6, R72, R82) -/

theorem State.installHit_some {tag : Tag} {h : Hit} {r : Install} (hr : h.install? tag = some r) :
    s.installHit tag h = ((s.install r).1, (s.install r).2.succeeded) := by
  simp only [State.installHit, hr]

theorem exec_crosspointInstall_of_walk {h : Hit} {hs : List Hit} {ok : Bool} {r : Install}
    (hj : s.walker.job = .walking w rest) (hp : w.phase = .making (h :: hs) ok) (hr : h.install? w.tag = some r)
    {t : State} {left : List Hit} {ok' : Bool}
    (ht : State.settleCalls w.tag hs (ok || (s.install r).2.succeeded) (s.install r).1 = (t, left, ok')) :
    exec .crosspointInstall s = .next (t.setJob (.walking { w with phase := .making left ok' } rest)) := by
  show execCrosspointInstall s = _
  simp only [execCrosspointInstall, hj, hp, State.installHit_some hr, ht]

theorem exec_crosspointInstall_of_abandoned {r : Install} (hj : s.walker.job.walk? = none)
    (ha : s.xps.abandoned = some r) : exec .crosspointInstall s =
      .next ((s.install r).1.setXps { (s.install r).1.xps with abandoned := none }) := by
  show execCrosspointInstall s = _
  cases hw : s.walker.job with
  | idle => simp only [execCrosspointInstall, hw, ha]
  | waiting => simp only [execCrosspointInstall, hw, ha]
  | walking w rest =>
    rw [hw] at hj
    cases hj

end

theorem Hit.install?_of_decode {tag : Tag} {h : Hit} {src dst : Endpoint} {cls : SlotClass}
    (hs : Endpoint.decode h.content.source = some src) (hd : Endpoint.decode h.content.dest = some dst)
    (hc : SlotClass.decode h.content.cls.toNat = some cls) :
    h.install? tag = some ⟨src, dst, cls, h.content.gain.toNat, tag.owner⟩ := by
  simp only [Hit.install?, hs, hd, hc]

/-- A CALL hit that stands first raises the count of its port and is a success (R72, R78). -/
theorem State.settleCalls_cons {p : Port} {k : Key} {q : Port} {h : Hit} (hcall : h.content.cls.toNat = 3)
    (hq : Endpoint.decode h.content.dest = some (.port q)) (hs : List Hit) (ok : Bool) (s : State) :
    State.settleCalls (.key p k) (h :: hs) ok s = State.settleCalls (.key p k) hs true ((s.setWalker { s.walker with
      calls := put s.walker.calls q (s.walker.calls[q] + 1) }).setEntry p k { s.entry p k with
        calls := (s.entry p k).calls ++ [q] }) := by
  have isCall : h.isCall (.key p k) = true := beq_iff_eq.2 hcall
  have raised : s.raiseCall p k h = (s.setWalker { s.walker with
      calls := put s.walker.calls q (s.walker.calls[q] + 1) }).setEntry p k { s.entry p k with
        calls := (s.entry p k).calls ++ [q] } := by
    unfold State.raiseCall
    rw [hq]
    rfl
  rw [State.settleCalls, if_pos isCall, raised]

/-- Settles O30: the install of the walk's next hit, then its CALL hits; an abandoned install by itself. -/
theorem walkInstallTaken : Obligations.WalkInstallTaken := by
  refine fun s => ⟨?_, fun r hj ha => exec_crosspointInstall_of_abandoned hj ha,
    fun p k q h hs ok hcall hq => State.settleCalls_cons hcall hq hs ok s⟩
  intro w rest h hs ok src dst cls hj hp hsrc hdst hcls owner out good
  have install : h.install? w.tag = some ⟨src, dst, cls, h.content.gain.toNat, owner⟩ :=
    Hit.install?_of_decode hsrc hdst hcls
  have succeeded : out.2.succeeded = good := rfl
  refine ⟨fun p k calls left ports ht hsplit hc hl => ?_, fun c ht => ?_⟩
  · have walker : out.1.walker = s.walker := State.Moved.install_walker _ _
    obtain ⟨counts, hcounts, e⟩ := State.settleCalls_key p k calls left ports (ok || good) out.1 hc hl
    rw [walker] at hcounts
    refine ⟨counts, hcounts, ?_⟩
    rw [← hsplit, ← ht, ← succeeded] at e
    rw [exec_crosspointInstall_of_walk hj hp install e, State.entry, walker]
    rfl
  · have kept := State.settleCalls_cue c hs (ok || good) out.1
    rw [← ht, ← succeeded] at kept
    exact exec_crosspointInstall_of_walk hj hp install kept

end Sys2Proof.Machine
end


section
/-!
PROOFS, a circuit that leaves its state by CANCEL or by a timer (R91, R94 to R96, R98): O36 and O39.
-/

namespace Sys2Proof.Machine

variable (s : State) (c : CircuitIx) (x : Circuit)

/-- The CUE_EVENT of a circuit just replaced tells the state and the late marker of its new record (R98). -/
theorem State.offerCueEvent_setCircuit (cue : Option CueNumber) : (s.setCircuit c x).offerCueEvent c cue =
    (s.setCircuit c x).offer (.cueEvent c x.state cue x.late s.trunk.clock) := by
  have stored : (s.setCircuit c x).circuits[c] = x := put_get_same s.circuits c x
  unfold State.offerCueEvent
  rw [stored]
  rfl

/-- The entry to IDLE (R96): its CUE_EVENT tells the cue number held just before, and the late marker cleared. -/
theorem State.toIdle_eq : s.toIdle c x =
    (((s.setCircuit c x.enterIdle).offer (.cueEvent c .idle x.cue false s.trunk.clock)).hand
      (.removeCircuit c)).suppress fun t => t == .cue c := by
  unfold State.toIdle
  rw [State.offerCueEvent_setCircuit]
  rfl

variable {s c}

/-- CANCEL before the go (R94): the outcome CANCELLED, and the entry to IDLE. -/
theorem State.cancel_of_waiting (h : s.circuits[c].state = .standby ∨ s.circuits[c].state = .ready
    ∨ s.circuits[c].state = .late) :
    s.cancel c = (s.toIdle c (s.circuits[c].record .cancelled s.trunk.clock), .done) := by
  unfold State.cancel
  rcases h with h | h | h <;> simp only [h, State.clock]

theorem State.cancel_of_go (h : s.circuits[c].state = .go) : s.cancel c = (s.toIdle c s.circuits[c], .done) := by
  unfold State.cancel
  simp only [h]

theorem State.cancel_of_idle (h : s.circuits[c].state = .idle) : s.cancel c = (s, .done) := by
  unfold State.cancel
  simp only [h]

/-- Settles O36. -/
theorem cancelRule : Obligations.CancelRule := by
  refine ⟨fun s r => rfl, fun s c => ⟨fun h => ?_, fun h => ?_, fun h => State.cancel_of_idle h⟩⟩
  · rw [State.cancel_of_waiting h, State.toIdle_eq]
    rfl
  · rw [State.cancel_of_go h, State.toIdle_eq]
    rfl

/-! ### The two timers -/

/-- The standby timer of a circuit in STANDBY whose deadline is reached (R91). -/
theorem exec_standbyTimerExpiry {d : Deadline} (hs : s.circuits[c].state = .standby)
    (hd : s.circuits[c].standbyDeadline = some d) (reached : d.reached = true) :
    exec (.standbyTimerExpiry c) s = .next ((s.setCircuit c { s.circuits[c] with
      state := .late, standbyDeadline := none }).offerCueEvent c s.circuits[c].cue) :=
  congrArg Host.Outcome.next (if_pos ⟨hs, by rw [hd]; exact reached⟩)

/-- The go hold of a circuit in GO whose deadline is reached (R95). -/
theorem exec_goHoldExpiry {d : Deadline} (hs : s.circuits[c].state = .go)
    (hd : s.circuits[c].holdDeadline = some d) (reached : d.reached = true) :
    exec (.goHoldExpiry c) s = .next (
      if s.circuits[c].pending then
        (s.setCircuit c (({ s.circuits[c] with pending := false, pendingCue := none } : Circuit).enterStandby
          s.circuits[c].pendingCue s.clock)).offerCueEvent c s.circuits[c].pendingCue
      else s.toIdle c s.circuits[c]) :=
  congrArg Host.Outcome.next (if_pos ⟨hs, by rw [hd]; exact reached⟩)

/-- Settles O39. -/
theorem cueTimersExpire : Obligations.CueTimersExpire := by
  refine fun s c d reached => ⟨fun hs hd => ?_, fun hs hd pending => ?_, fun hs hd pending => ?_⟩
  · rw [exec_standbyTimerExpiry hs hd reached, State.offerCueEvent_setCircuit]
  · rw [exec_goHoldExpiry hs hd reached, if_pos pending, State.offerCueEvent_setCircuit]
    rfl
  · rw [exec_goHoldExpiry hs hd reached, if_neg (Bool.not_eq_true _ ▸ pending), State.toIdle_eq]
    rfl

end Sys2Proof.Machine
end


section
/-!
PROOFS, the station ports: lost frames and the drop (O17), and the STATE that a flagged port posts (O18).
-/

namespace Sys2Proof.Machine

section
variable {s : State} {p : Port}

/-- What the drop makes of the desk requests in transit (R130), in the words of the statements. -/
theorem Request.discardFor_eq : Request.discardFor p = fun r => match r with
    | .desk q seq wanted d => .desk q seq (wanted && p != q) d
    | r => r := by
  funext r
  cases r <;> rfl

/-! ### Lost frames (R128, R130, R132) -/

theorem exec_linkReport_missing (hk : s.ports[p].kind ≠ .unused) :
    exec (.linkReport p .missing) s = .next (s.lostFrame p false) :=
  congrArg Host.Outcome.next (if_neg hk)

theorem exec_linkReport_bad {b : List Byte} (hk : s.ports[p].kind ≠ .unused) (bad : Uplink.read b = none) :
    exec (.linkReport p (.frame b)) s = .next (s.lostFrame p true) := by
  show execLinkReport p (.frame b) s = _
  simp only [execLinkReport, if_neg hk, bad]

/-- Below a bad run of 8 a port that is UP stays UP; a sample stands in for a bad frame (R132). -/
theorem State.lostFrame_of_short (hu : s.ports[p].link = .up) (short : s.ports[p].badRun < 7) (held : Bool) :
    s.lostFrame p held = s.setPort p (
      let y := { s.ports[p] with goodRun := 0, badRun := s.ports[p].badRun + 1, assembler := [] }
      if held then y.push (if y.badRun ≤ 2 then y.lastGood else 0) else y) := by
  unfold State.lostFrame
  have below : s.ports[p].badRun + 1 < Config.badRunDown := Nat.succ_lt_succ short
  simp only [hu, if_pos below]

/-- The eighth lost frame in a row drops the port (R130). -/
theorem State.lostFrame_of_eighth (hu : s.ports[p].link = .up) (seventh : s.ports[p].badRun = 7) (held : Bool) :
    s.lostFrame p held = s.dropPort p := by
  unfold State.lostFrame
  have reached : ¬ s.ports[p].badRun + 1 < Config.badRunDown := by rw [seventh]; decide
  simp only [hu, if_neg reached]

/-- Settles O17. -/
theorem lostFrameOfAnUpPort : Obligations.LostFrameOfAnUpPort := by
  refine fun s p hk hu => ⟨fun short => ?_, fun b bad short => ?_, fun r lost seventh => ?_⟩
  · rw [exec_linkReport_missing hk, State.lostFrame_of_short hu short]
    rfl
  · rw [exec_linkReport_bad hk bad, State.lostFrame_of_short hu short, if_pos rfl, StationPort.push_eq]
  · have dropped : exec (.linkReport p r) s = .next (s.dropPort p) := by
      rcases lost with rfl | ⟨b, rfl, bad⟩
      · rw [exec_linkReport_missing hk, State.lostFrame_of_eighth hu seventh]
      · rw [exec_linkReport_bad hk bad, State.lostFrame_of_eighth hu seventh]
    rw [dropped, State.dropPort_eq, Request.discardFor_eq]
    rfl

/-! ### The STATE post (R60) -/

/-- No drop of the port is still to be taken. -/
theorem State.dropPending_eq_false (hx : Request.removePortKeys p ∉ s.requests)
    (hw : Request.portRowReset p ∉ s.requests) : s.dropPending p = false := by
  unfold State.dropPending
  rw [decide_eq_false hx, decide_eq_false hw]
  rfl

end

/-- Settles O18. -/
theorem statePosts : Obligations.StatePosts := by
  refine fun s p => ⟨fun flagged room hx hw => ?_, fun kept => ?_⟩
  · have free : (!s.dropPending p) = true := by rw [State.dropPending_eq_false hx hw]; rfl
    exact congrArg Host.Outcome.next (if_pos ⟨flagged, room, free⟩)
  · refine congrArg Host.Outcome.next (if_neg fun ⟨flagged, room, _⟩ => ?_)
    rcases kept with clear | full
    · exact absurd (clear.symm.trans flagged) Bool.false_ne_true
    · exact absurd room (Nat.not_lt.2 full)

end Sys2Proof.Machine
end


section
/-!
PROOFS, the requests of a soft reset and what they leave (R82, R142, R174): O53. The lamp and row requests that the
walker takes (R77, R81, R131): O33.
-/

namespace Sys2Proof.Machine

/-! ### The last request of a soft reset places the reply (R160, R174) -/

theorem Request.ofReset_iff {r : Request} : r.ofReset = true ↔
    r = .removeKeysAndCues ∨ r = .walkerReset ∨ r = .circuitAbort ∨ ∃ p, r = .portResync p := by
  cases r <;> simp [Request.ofReset]

/-- The requests in transit beside the last one are of no soft reset. -/
theorem State.lastOfReset.none_left {s : State} {r : Request} {n : Nat} {c : Command} {rest : List Command}
    (h : s.lastOfReset r n c rest) : ∀ x ∈ s.requests.erase r, x.ofReset = false := by
  obtain ⟨-, -, -, others⟩ := h
  intro x hx
  obtain ⟨hkeys, hwalker, habort, hport⟩ := others x hx
  refine Bool.eq_false_iff.2 fun h => ?_
  rcases Request.ofReset_iff.1 h with e | e | e | ⟨p, e⟩
  · exact hkeys e
  · exact hwalker e
  · exact habort e
  · exact hport p e

section
variable {s : State} {n : Nat} {c : Command} {rest : List Command}

theorem State.resetTaken_of_left (left : ∃ r ∈ s.requests, r.ofReset = true) : s.resetTaken = s := by
  rcases s.resetTaken_cases with e | ⟨n, -, noneLeft, -⟩
  · exact e
  · exact absurd (List.any_eq_true.2 left) (by rw [noneLeft]; exact Bool.false_ne_true)

theorem State.resetTaken_of_last (noneLeft : s.requests.any Request.ofReset = false)
    (he : s.management.execution = .softReset n) (hc : s.management.commands = c :: rest) :
    s.resetTaken = s.answered c rest ⟨.done, false, [byte n]⟩ := by
  unfold State.resetTaken
  simp only [he, noneLeft, Bool.false_eq_true, if_false]
  exact s.answer_of_commands hc _

/-- No request of a soft reset stands in a list whose members are of no soft reset. -/
theorem any_ofReset_eq_false {rs : List Request} (h : ∀ r ∈ rs, r.ofReset = false) :
    rs.any Request.ofReset = false :=
  List.any_eq_false.2 fun r hr => by rw [h r hr]; exact Bool.false_ne_true

/-! ### The walker, the cue engine and the station ports take theirs -/

/-- The walker with its key entries and call counts at their initial values (R82). -/
def Walker.blank (w : Walker) : Walker := { w with keys := Walker.initial.keys, calls := Walker.initial.calls }

theorem Walker.blank_entry (w : Walker) (p : Port) (k : Key) : w.blank.entry p k = .initial := by
  simp [Walker.blank, Walker.entry, Walker.initial]

theorem exec_walkerReset (h : Request.walkerReset ∈ s.requests) : exec .walkerReset s =
    .next ((s.setWalker s.walker.blank).setRequests (s.requests.erase .walkerReset)).resetTaken :=
  congrArg Host.Outcome.next (s.take_of_mem h _)

theorem exec_circuitAbort (h : Request.circuitAbort ∈ s.requests) : exec .circuitAbort s =
    .next ((List.finRange 24).foldl State.abortCircuit
      (s.setRequests (s.requests.erase .circuitAbort))).resetTaken :=
  congrArg Host.Outcome.next (s.take_of_mem h _)

/-- A notice may bring a report to the fault log, and no request of a soft reset. -/
theorem State.offer_ofReset (s : State) (body : NoticeBody) :
    (s.offer body).requests.any Request.ofReset = s.requests.any Request.ofReset := by
  rcases s.offer_cases body with ⟨-, e⟩ | ⟨-, e⟩ <;> rw [e]
  · rfl
  · simp [State.report, State.hand, Request.ofReset]

theorem State.abortCircuits_ofReset (cs : List CircuitIx) (s : State) :
    (cs.foldl State.abortCircuit s).requests.any Request.ofReset = s.requests.any Request.ofReset := by
  induction cs generalizing s with
  | nil => rfl
  | cons c cs ih =>
    rw [List.foldl_cons, ih]
    unfold State.abortCircuit
    dsimp only
    split
    · rfl
    · exact State.offer_ofReset _ _

/-- The walker's or the cue engine's request, taken last, is carried out in a state that differs in neither queue and
in which no request of a soft reset is left. -/
theorem exec_lastOfReset {r : Request} {i : Instr}
    (hi : (r, i) ∈ [(Request.walkerReset, Instr.walkerReset), (Request.circuitAbort, Instr.circuitAbort)])
    (last : s.lastOfReset r n c rest) : ∃ t : State, s.Calm t ∧ t.requests.any Request.ofReset = false
      ∧ exec i s = .next t.resetTaken := by
  have noneLeft := any_ofReset_eq_false last.none_left
  obtain ⟨hr, -, -, -⟩ := last
  simp only [List.mem_cons, List.not_mem_nil, or_false, Prod.mk.injEq] at hi
  rcases hi with ⟨rfl, rfl⟩ | ⟨rfl, rfl⟩
  · refine ⟨_, ?_, noneLeft, exec_walkerReset hr⟩
    exact ((State.Calm.refl s).setWalker s.walker.blank le_rfl).setRequests _
  · refine ⟨_, ?_, (State.abortCircuits_ofReset _ _).trans noneLeft, exec_circuitAbort hr⟩
    exact ((State.Calm.refl s).setRequests _).abortCircuits _

theorem State.isUp_iff {p : Port} : s.isUp p = true ↔ s.ports[p].link = .up := beq_iff_eq

theorem exec_portResync {p : Port} (h : Request.portResync p ∈ s.requests) : exec (.portResync p) s =
    .next (((if s.ports[p].link = .up then s.setPort p { s.ports[p] with resync := true } else s).setRequests
      (s.requests.erase (.portResync p))).resetTaken) := by
  show execPortResync p s = _
  rw [execPortResync, s.take_of_mem h]
  by_cases hu : s.ports[p].link = .up
  · have up : (s.setRequests (s.requests.erase (.portResync p))).isUp p = true := State.isUp_iff.2 hu
    rw [if_pos hu, if_pos up]
    rfl
  · have notUp : ¬ (s.setRequests (s.requests.erase (.portResync p))).isUp p = true := mt State.isUp_iff.1 hu
    rw [if_neg hu, if_neg notUp]

/-! ### The start of a soft reset -/

theorem Job.sentInstall_none {j : Job} (h : j.walk? = none) : j.sentInstall = none := by
  simp only [Job.sentInstall, h]

theorem Job.scrubs_none {j : Job} (h : j.walk? = none) : j.scrubs = [] := by simp only [Job.scrubs, h]; rfl

theorem Job.scrubs_some {j : Job} {w : Walk} (h : j.walk? = some w) : j.scrubs = w.reading.scrubs := by
  simp only [Job.scrubs, h]; rfl

/-- A SOFT RESET that may run begins. -/
theorem exec_softReset (h : s.canRun 0x02 [.unlocked, .locked] c rest) :
    exec .softReset s = .next (softReset c.params s) :=
  congrArg Host.Outcome.next (h.begin (by decide) _)

end

/-- Settles O53. (`softReset` names the model's function.) -/
theorem softResetRule : Obligations.SoftReset := by
  refine ⟨fun r => Request.ofReset_iff, fun s c rest h => ?_, fun s p hp => ?_, fun s n c rest r i hi last => ?_⟩
  · refine ⟨_, (exec_softReset h).trans (congrArg _ (softReset_eq _ s)), ?_⟩
    obtain ⟨hc, -⟩ := h
    refine ⟨?_, rfl, rfl, rfl, rfl, rfl, rfl, fun hn => ⟨?_, Job.sentInstall_none hn⟩, fun w hw => ?_, rfl, rfl, rfl,
      rfl, rfl, rfl, rfl, rfl, rfl, rfl, rfl⟩
    · simp [hc]
    · show s.walker.job.scrubs.foldl _ _ = _
      rw [Job.scrubs_none hn]
      rfl
    · show s.walker.job.scrubs.foldl _ _ = _
      rw [Job.scrubs_some hw]
  · refine ⟨fun left => ?_, fun n c rest noneLeft he hc => ?_⟩
    · rw [exec_portResync hp, State.resetTaken_of_left left]
    · rw [exec_portResync hp]
      refine congrArg Host.Outcome.next (State.resetTaken_of_last (any_ofReset_eq_false noneLeft) ?_ ?_)
      · split <;> exact he
      · split <;> exact hc
  · obtain ⟨t, calm, noneLeft, e⟩ := exec_lastOfReset hi last
    obtain ⟨-, hc, he, -⟩ := last
    rw [State.resetTaken_of_last noneLeft (calm.execution.trans he) (calm.commands.trans hc)] at e
    refine ⟨_, e, rfl, rfl, ?_⟩
    show t.management.replies ++ _ = _
    rw [calm.replies]
    rfl

/-! ### Lamp requests and row resets (R77, R81, R131) -/

theorem WalkPhase.isMaking_iff {x : WalkPhase} : x.isMaking = true ↔ ∃ hs ok, x = .making hs ok := by
  cases x with
  | read => exact ⟨nofun, nofun⟩
  | making hs ok => exact ⟨fun _ => ⟨hs, ok, rfl⟩, fun _ => rfl⟩

section
variable {s : State} {p : Port} {k : Key}

/-- A BUSY lamp request for a key whose hits a walk is making good is held (R73). -/
theorem exec_busyLampRequest_of_making {w : Walk} {rest : List KeyLevel} {hs : List Hit} {ok : Bool}
    (h : Request.busyLamp p k ∈ s.requests) (hj : s.walker.job = .walking w rest) (ht : w.tag = .key p k)
    (hp : w.phase = .making hs ok) : exec (.busyLampRequest p k) s =
      .next ((s.setRequests (s.requests.erase (.busyLamp p k))).setJob
        (.walking { w with busyHeld := true } rest)) := by
  show execBusyLampRequest p k s = _
  have job : (s.setRequests (s.requests.erase (.busyLamp p k))).walker.job = .walking w rest := hj
  rw [execBusyLampRequest, s.take_of_mem h]
  simp only [job]
  exact congrArg Host.Outcome.next (if_pos ⟨ht, WalkPhase.isMaking_iff.2 ⟨hs, ok, hp⟩⟩)

/-- Every other BUSY lamp request is applied at once, whatever walk waits or is in flight (R77). -/
theorem exec_busyLampRequest_of_other (h : Request.busyLamp p k ∈ s.requests)
    (other : ∀ w rest hs ok, s.walker.job = .walking w rest → w.tag = .key p k → w.phase ≠ .making hs ok) :
    exec (.busyLampRequest p k) s =
      .next ((s.setRequests (s.requests.erase (.busyLamp p k))).setEntry p k (s.entry p k).busy) := by
  show execBusyLampRequest p k s = _
  rw [execBusyLampRequest, s.take_of_mem h]
  split
  · rename_i w rest hj
    refine congrArg Host.Outcome.next (if_neg fun ⟨ht, making⟩ => ?_)
    obtain ⟨hs, ok, hp⟩ := WalkPhase.isMaking_iff.1 making
    exact other w rest hs ok hj ht hp
  all_goals rfl

theorem KeyEntry.busy_of_held {e : KeyEntry} (h : e.state = .held ∨ e.state = .latched) :
    e.busy = { e with lamp := .busy } := by
  unfold KeyEntry.busy
  rcases h with h | h <;> simp only [h]

theorem KeyEntry.busy_of_not_held {e : KeyEntry} (h : e.state = .off ∨ e.state = .missed ∨ e.state = .refused) :
    e.busy = e := by
  unfold KeyEntry.busy
  rcases h with h | h | h <;> simp only [h]

/-- The row of a port waits only for a walk of the port that is making its hits good (R131). -/
theorem State.rowFree_iff : s.rowFree p = true ↔
    ∀ w rest k hs ok, s.walker.job = .walking w rest → w.tag = .key p k → w.phase ≠ .making hs ok := by
  unfold State.rowFree
  split
  · rename_i w rest hj
    rw [Bool.not_eq_true', ← Bool.not_eq_true, Bool.and_eq_true, Tag.ofPort_iff, WalkPhase.isMaking_iff]
    refine ⟨fun free w' rest' k hs ok hj' ht hp => ?_, fun free ⟨⟨k, ht⟩, hs, ok, hp⟩ => free w rest k hs ok hj ht hp⟩
    cases hj.symm.trans hj'
    exact free ⟨⟨k, ht⟩, hs, ok, hp⟩
  all_goals
    rename_i hj
    exact ⟨fun _ _ _ _ _ _ hj' => absurd (hj.symm.trans hj') nofun, fun _ => rfl⟩

theorem exec_portRowReset (h : Request.portRowReset p ∈ s.requests) (free : s.rowFree p = true) :
    exec (.portRowReset p) s =
      .next ((s.setWalker (s.walker.resetRow p)).setRequests (s.requests.erase (.portRowReset p))) :=
  congrArg Host.Outcome.next ((if_pos free).trans (s.take_of_mem h _))

/-- Each appearance of a port in a call list of the row lowers its count by one (R81). -/
theorem Walker.resetRow_calls (s : State) (p q : Port) : (s.walker.resetRow p).calls[q] = s.walker.calls[q]
    - ((List.finRange 5).map fun k => (s.entry p k).calls.count q).sum := by
  show (lowerCalls _ _)[q] = _
  rw [lowerCalls_get, List.count_flatten, State.keys_toList, List.map_map, List.map_map]
  rfl

end

/-- Settles O33. -/
theorem lampAndRowRequests : Obligations.LampAndRowRequests := by
  refine ⟨fun s p k h => ⟨fun other => ?_, fun w rest hs ok hj ht hp => exec_busyLampRequest_of_making h hj ht hp⟩,
    fun s => ⟨fun p h => ⟨fun free => ?_, fun w rest k hs ok hj ht hp => ?_⟩, fun h => ?_⟩⟩
  · rw [exec_busyLampRequest_of_other h other]
    refine ⟨fun held => by rw [KeyEntry.busy_of_held held], fun notHeld => ?_⟩
    rw [KeyEntry.busy_of_not_held notHeld]
    exact congrArg (fun w => Host.Outcome.next ((s.setRequests _).setWalker w)) (Walker.setEntry_self _ p k)
  · refine ⟨s.walker.resetRow p, exec_portRowReset h (State.rowFree_iff.2 free), fun k => ?_, fun q k hq => ?_,
      Walker.resetRow_calls s p, rfl, rfl⟩
    · exact (Walker.resetRow_entry _ p p k).trans (if_pos rfl)
    · exact (Walker.resetRow_entry _ p q k).trans (if_neg (Ne.symm hq))
  · exact congrArg Host.Outcome.next (if_neg fun free => State.rowFree_iff.1 free w rest k hs ok hj ht hp)
  · refine ⟨s.walker.blank, Walker.blank_entry _, fun q => ?_, rfl, rfl, ?_⟩
    · simp [Walker.blank, Walker.initial]
    · rw [exec_walkerReset h]
      refine ⟨fun left => congrArg _ (State.resetTaken_of_left left), fun n c rest last => ?_⟩
      have noneLeft := any_ofReset_eq_false last.none_left
      obtain ⟨-, hc, he, -⟩ := last
      exact congrArg _ (State.resetTaken_of_last noneLeft he hc)

end Sys2Proof.Machine
end


section
/-!
PROOFS, the commands that set up ports, the lane map and circuits, and RETRY KEY (R79, R85, R140, R151): O52.
-/

namespace Sys2Proof.Machine

/-! ### Fields of a byte -/

theorem toNat_lowNibble (b : Byte) : (b.extractLsb' 0 4).toNat = b.toNat % 16 := by
  simp [BitVec.extractLsb'_toNat]

theorem toNat_highNibble (b : Byte) : (b.extractLsb' 4 4).toNat = b.toNat / 16 := by
  simp [BitVec.extractLsb'_toNat, Nat.shiftRight_eq_div_pow]
  omega

theorem toNat_lampField (b : Byte) : (b.extractLsb' 4 2).toNat = b.toNat / 16 % 4 := by
  simp [BitVec.extractLsb'_toNat, Nat.shiftRight_eq_div_pow]

theorem PortKind.decode_code (k : PortKind) : PortKind.decode k.code = some k := by
  cases k <;> rfl

theorem PortKind.decode_of_le {code : Nat} (h : 5 ≤ code) : PortKind.decode code = none := by
  match code, h with
  | n + 5, _ => rfl

theorem AnswerRule.decode_code (r : AnswerRule) : AnswerRule.decode r.code = some r := by
  cases r <;> rfl

theorem AnswerRule.decode_of_le {code : Nat} (h : 2 ≤ code) : AnswerRule.decode code = none := by
  match code, h with
  | n + 2, _ => rfl

theorem flagDecode_of_le {code : Nat} (h : 2 ≤ code) : flagDecode code = none := by
  match code, h with
  | n + 2, _ => rfl

theorem flagDecode_code (b : Bool) : flagDecode (if b then 1 else 0) = some b := by
  cases b <;> rfl

/-! ### PORT SETUP (R140) -/

section
variable {s : State} {p : Port} {kind : PortKind} {ps : List Byte}

/-- A port with its kind and its settings of PORT SETUP. -/
def StationPort.settled (x : StationPort) (kind : PortKind) (ps : List Byte) : StationPort :=
  { x with kind := kind }.set (PortSettings.read ps).clamped

/-- The clamped settings: the duck floor, one byte, is never over its range. -/
theorem PortSettings.clamped_read (ps : List Byte) : (PortSettings.read ps).clamped =
    ⟨min (wordAt ps 1).toNat 1023, (byteAt ps 3).toNat, min (wordAt ps 4).toNat 256, min (wordAt ps 6).toNat 256,
      min (wordAt ps 8).toNat 256⟩ := by
  have floor : (byteAt ps 3).toNat ≤ 255 := Nat.le_of_lt_succ (byteAt ps 3).isLt
  simp only [PortSettings.clamped, PortSettings.read, Nat.min_eq_left floor]

theorem PortSettings.clamps_iff (ps : List Byte) : PortSettings.read ps ≠ (PortSettings.read ps).clamped ↔
    1023 < (wordAt ps 1).toNat ∨ 256 < (wordAt ps 4).toNat ∨ 256 < (wordAt ps 6).toNat
      ∨ 256 < (wordAt ps 8).toNat := by
  rw [PortSettings.clamped_read, PortSettings.read, Ne, PortSettings.mk.injEq]
  omega

theorem portSetup_of_le (h : 80 ≤ (byteAt ps 0).toNat) : portSetup ps s = s.answer (.bare .badParam) := by
  have unknown : PortKind.decode ((byteAt ps 0).extractLsb' 4 4).toNat = none := by
    rw [toNat_highNibble]
    exact PortKind.decode_of_le (by omega)
  unfold portSetup
  rw [unknown]
  split
  · contradiction
  · rfl

/-- PORT SETUP of a port: a port that changes its kind goes DOWN first. -/
theorem portSetup_eq (h : (byteAt ps 0).toNat = p.val + 16 * kind.code) {u : State}
    (hu : (if kind = s.ports[p].kind then s else s.goDown p) = u) : portSetup ps s =
      (u.setPort p (u.ports[p].settled kind ps)).answer ⟨.done, decide (1023 < (wordAt ps 1).toNat
        ∨ 256 < (wordAt ps 4).toNat ∨ 256 < (wordAt ps 6).toNat ∨ 256 < (wordAt ps 8).toNat),
        [byte u.ports[p].link.code]⟩ := by
  have hp := p.isLt
  have port : index? 16 ((byteAt ps 0).extractLsb' 0 4).toNat = some p :=
    index?_of_eq (by rw [toNat_lowNibble, h]; omega)
  have known : PortKind.decode ((byteAt ps 0).extractLsb' 4 4).toNat = some kind := by
    rw [toNat_highNibble, show (byteAt ps 0).toNat / 16 = kind.code by omega, PortKind.decode_code]
  subst hu
  unfold portSetup
  simp only [port, known, PortSettings.clamps_iff]
  rfl

theorem StationPort.settled_eq (x : StationPort) (kind : PortKind) (ps : List Byte) : x.settled kind ps = { x with
    kind := kind, gate := min (wordAt ps 1).toNat 1023, floor := (byteAt ps 3).toNat
    master := min (wordAt ps 4).toNat 256, sidetone := min (wordAt ps 6).toNat 256
    duck := min (wordAt ps 8).toNat 256 } := by
  unfold StationPort.settled
  rw [PortSettings.clamped_read]
  rfl

theorem State.goDown_of_down (h : s.ports[p].link = .down) : s.goDown p = s := by
  unfold State.goDown
  simp only [h]

theorem State.goDown_of_training (h : s.ports[p].link = .training) : s.goDown p =
    s.setPort p { s.ports[p] with link := .down, goodRun := 0, badRun := 0, assembler := [] } := by
  unfold State.goDown
  simp only [h]

theorem State.goDown_of_up (h : s.ports[p].link = .up) : s.goDown p = s.dropPort p := by
  unfold State.goDown
  simp only [h]

theorem State.setPort_port (x : StationPort) : (s.setPort p x).ports[p] = x := put_get_same s.ports p x

/-- The record of a port that has just dropped. -/
theorem State.dropPort_port : (s.dropPort p).ports[p] = s.ports[p].dropped := by
  rw [State.dropPort_eq, State.suppress_ports]
  exact put_get_same s.ports p _

/-- A record that replaces that of a port that has just dropped. -/
theorem State.dropPort_setPort (x : StationPort) : (s.dropPort p).setPort p x =
    ((s.setPort p x).setRequests (s.requests.map (Request.discardFor p)
      ++ [.removePortKeys p, .lostMark p true, .fault .portLost (.port p)])).suppress fun t => t.ofPort p := by
  rw [State.dropPort_eq, State.suppress_setPort, State.setRequests_setPort, State.setPort_setPort]

variable {c : Command} {rest : List Command}

theorem exec_portSetup (h : s.canRun 0x10 [.unlocked] c rest) : exec .portSetup s = .next (portSetup c.params s) :=
  congrArg Host.Outcome.next (h.begin (by decide) _)

end

/-! ### LANE MAP (R151) -/

theorem exec_laneMap {s : State} {c : Command} {rest : List Command} (h : s.canRun 0x12 [.unlocked] c rest) :
    exec .laneMap s = .next ((s.setTrunk { s.trunk with laneMap := laneMapRead c.params }).answered c rest
      ⟨.done, false, [byte (ownedCount s.trunk.laneMap), byte (ownedCount (laneMapRead c.params))]⟩) := by
  refine congrArg Host.Outcome.next ((h.begin (by decide) laneMap).trans ?_)
  rw [laneMap, h.answer (by rfl)]
  rfl

/-! ### The members of CIRCUIT SETUP (R85, 12.6) -/

/-- The lamp field of a member byte: lamp A and lamp B have the codes 0 and 1. -/
def lampField (b : Byte) : Nat := b.toNat / 16 % 4

/-- The port and the lamp that a member byte names, where its lamp field is that of a lamp. -/
def memberNamed (b : Byte) : Port × CrewLamp :=
  (⟨b.toNat % 16, Nat.mod_lt _ (by decide)⟩, if lampField b = 0 then .a else .b)

theorem memberDecode_absent {b : Byte} (h : b.getLsbD 7 = false) : memberDecode b = some none :=
  if_neg (Bool.not_eq_true _ ▸ h)

theorem memberDecode_malformed {b : Byte} (h : b.getLsbD 7 = true) (hl : 2 ≤ lampField b) : memberDecode b = none := by
  unfold memberDecode
  rw [if_pos h, toNat_lampField]
  unfold lampField at hl
  split
  · omega
  · omega
  · rfl

theorem memberDecode_named {b : Byte} (h : b.getLsbD 7 = true) (hl : lampField b < 2) :
    memberDecode b = some (some (memberNamed b)) := by
  have port : index? 16 (b.extractLsb' 0 4).toNat = some (memberNamed b).1 := index?_of_eq (toNat_lowNibble b)
  have lamp : lampField b = 0 ∨ lampField b = 1 := by omega
  unfold memberDecode
  rw [if_pos h, toNat_lampField, port]
  unfold memberNamed
  rcases lamp with e | e
  · rw [if_pos e]
    unfold lampField at e
    simp only [e]
  · rw [if_neg (by omega)]
    unfold lampField at e
    simp only [e]

/-- The member bytes of CIRCUIT SETUP. -/
def memberBytes (ps : List Byte) : List Byte := [byteAt ps 1, byteAt ps 2, byteAt ps 3, byteAt ps 4]

/-- One malformed member makes the whole list malformed. -/
theorem membersDecode_malformed {ps : List Byte} (h : ∃ b ∈ memberBytes ps, memberDecode b = none) :
    membersDecode ps = none := by
  obtain ⟨b, hb, hd⟩ := h
  simp only [memberBytes, List.mem_cons, List.not_mem_nil, or_false] at hb
  unfold membersDecode
  split
  · rename_i h1 h2 h3 h4
    rcases hb with rfl | rfl | rfl | rfl
    · cases hd.symm.trans h1
    · cases hd.symm.trans h2
    · cases hd.symm.trans h3
    · cases hd.symm.trans h4
  · rfl

/-- The elements of a list that pass a test, mapped, one element at a time. -/
theorem map_filter_eq_flatMap {α β : Type} (test : α → Bool) (f : α → β) (xs : List α) :
    (xs.filter test).map f = xs.flatMap fun x => (if test x then some (f x) else none).toList := by
  induction xs with
  | nil => rfl
  | cons x xs ih =>
    rw [List.flatMap_cons, ← ih, List.filter_cons]
    cases test x <;> rfl

/-- Members that are well formed are those present, in order, unless a pair appears twice. -/
theorem membersDecode_named {ps : List Byte}
    (h : ∀ b ∈ (memberBytes ps).filter fun b => b.getLsbD 7, lampField b < 2) : membersDecode ps =
      if (((memberBytes ps).filter fun b => b.getLsbD 7).map memberNamed).Nodup then
        some (((memberBytes ps).filter fun b => b.getLsbD 7).map memberNamed) else none := by
  have decoded (b : Byte) (hb : b ∈ memberBytes ps) :
      memberDecode b = some (if b.getLsbD 7 then some (memberNamed b) else none) := by
    cases hp : b.getLsbD 7 with
    | false => exact memberDecode_absent hp
    | true => exact memberDecode_named hp (h b (List.mem_filter.2 ⟨hb, hp⟩))
  rw [map_filter_eq_flatMap]
  unfold membersDecode
  rw [decoded (byteAt ps 1) (by simp [memberBytes]), decoded (byteAt ps 2) (by simp [memberBytes]),
    decoded (byteAt ps 3) (by simp [memberBytes]), decoded (byteAt ps 4) (by simp [memberBytes])]
  simp only [memberBytes, List.flatMap_cons, List.flatMap_nil, List.append_nil, List.append_assoc]

/-! ### CIRCUIT SETUP (R85) -/

section
variable {s : State} {ps : List Byte} {n : CircuitIx} {ms : List (Port × CrewLamp)} {rule : AnswerRule} {go : Bool}

theorem circuitSetup_malformed (h : 23 < (byteAt ps 0).toNat ∨ membersDecode ps = none ∨ 1 < (byteAt ps 5).toNat
    ∨ 1 < (byteAt ps 8).toNat) : circuitSetup ps s = s.answer (.bare .badParam) := by
  unfold circuitSetup
  dsimp only
  split
  · rename_i hc hm hr hg
    rcases h with h | h | h | h
    · cases (index?_of_le h).symm.trans hc
    · cases h.symm.trans hm
    · cases (AnswerRule.decode_of_le h).symm.trans hr
    · cases (flagDecode_of_le h).symm.trans hg
  · rfl

theorem circuitSetup_eq (hn : (byteAt ps 0).toNat = n.val) (hm : membersDecode ps = some ms)
    (hr : (byteAt ps 5).toNat = rule.code) (hg : (byteAt ps 8).toNat = if go then 1 else 0) : circuitSetup ps s =
      if s.circuits[n].state = .idle then
        (s.setCircuit n { s.circuits[n] with
          members := ms.map fun m => ⟨m.1, m.2, false, !s.isUp m.1⟩, rule := rule
          timeout := (byteAt ps 6).toNat, hold := max 1 (byteAt ps 7).toNat
          goUnanswered := go }).answer ⟨.done, decide ((byteAt ps 7).toNat = 0), []⟩
      else s.answer (.bare .circuitBusy) := by
  have circuit : circuitParam ps = some n := index?_of_eq hn
  unfold circuitSetup
  simp only [circuit, hm, hr, hg, AnswerRule.decode_code, flagDecode_code]

theorem State.not_isUp (s : State) (p : Port) : (!s.isUp p) = decide (s.ports[p].link ≠ .up) := by
  unfold State.isUp
  cases s.ports[p].link <;> rfl

theorem max_one_eq (h : Nat) : max 1 h = if h = 0 then 1 else h := by
  split <;> omega

variable {c : Command} {rest : List Command}

theorem exec_circuitSetup (h : s.canRun 0x40 [.unlocked] c rest) :
    exec .circuitSetup s = .next (circuitSetup c.params s) :=
  congrArg Host.Outcome.next (h.begin (by decide) _)

/-! ### RETRY KEY (R79) -/

theorem exec_retryKey (h : s.canRun 0x34 anyLock c rest) : exec .retryKey s = .next (retryKey c.params s) :=
  congrArg Host.Outcome.next (h.begin (by decide) _)

theorem retryKey_of_le (h : 15 < (byteAt ps 0).toNat ∨ 4 < (byteAt ps 1).toNat) :
    retryKey ps s = s.answer (.bare .badParam) := by
  unfold retryKey
  split
  · rename_i hp hk
    rcases h with h | h
    · cases (index?_of_le h).symm.trans hp
    · cases (index?_of_le h).symm.trans hk
  · rfl

theorem retryKey_eq {p : Port} {k : Key} (hp : (byteAt ps 0).toNat = p.val) (hk : (byteAt ps 1).toNat = k.val) :
    retryKey ps s =
      if (s.entry p k).failed then
        if s.walker.queue.length < 32 then (s.enqueue (.retry p k)).answer (.bare .done) else s.answer (.bare .full)
      else s.answer (.bare .notHeld) := by
  unfold retryKey
  simp only [index?_of_eq hp, index?_of_eq hk]
  rfl

end

/-! ### The obligation -/

/-- Settles O52. -/
theorem setupCommands : Obligations.SetupCommands := by
  refine ⟨fun s c rest h => ⟨fun large => ?_, fun p kind hp => ⟨fun kept => ?_, fun changed training => ?_,
    fun changed up => ?_⟩⟩, fun s c rest h => ⟨laneMapRead c.params, fun n => Vector.getElem_ofFn _, exec_laneMap h⟩,
    fun ps => ⟨fun ⟨b, hb, hl⟩ => ?_, fun named => membersDecode_named named⟩,
    fun s c rest h => ⟨fun malformed => ?_, fun n ms rule go hn hm hr hg => ⟨fun idle => ?_, fun busy => ?_⟩⟩,
    fun s c rest h => ⟨fun p k hp hk => ⟨fun failed room => ?_, fun failed full => ?_, fun notFailed => ?_⟩,
      fun outside => ?_⟩⟩
  · rw [exec_portSetup h, portSetup_of_le large, h.answer (by rfl)]
    rfl
  · have stays : (if kind = s.ports[p].kind then s else s.goDown p) = s := by
      rcases kept with same | down
      · exact if_pos same.symm
      · rw [State.goDown_of_down down, ite_self]
    rw [exec_portSetup h, portSetup_eq hp stays, h.answer (by rfl), StationPort.settled_eq]
  · have goes : (if kind = s.ports[p].kind then s else s.goDown p) = s.goDown p := if_neg (Ne.symm changed)
    rw [exec_portSetup h, portSetup_eq hp (goes.trans (State.goDown_of_training training)), State.setPort_setPort,
      State.setPort_port, h.answer (by rfl), StationPort.settled_eq]
    rfl
  · have goes : (if kind = s.ports[p].kind then s else s.goDown p) = s.goDown p := if_neg (Ne.symm changed)
    rw [exec_portSetup h, portSetup_eq hp (goes.trans (State.goDown_of_up up)), State.dropPort_setPort,
      State.dropPort_port, h.answer (by rw [State.suppress_management]; rfl), StationPort.settled_eq,
      Request.discardFor_eq]
    rfl
  · obtain ⟨hb, hp⟩ := List.mem_filter.1 hb
    exact membersDecode_malformed ⟨b, hb, memberDecode_malformed hp hl⟩
  · rw [exec_circuitSetup h, circuitSetup_malformed malformed, h.answer (by rfl)]
    rfl
  · rw [exec_circuitSetup h, circuitSetup_eq hn hm hr hg, if_pos idle, h.answer (by rfl), max_one_eq]
    simp only [State.not_isUp]
  · rw [exec_circuitSetup h, circuitSetup_eq hn hm hr hg, if_neg busy, h.answer (by rfl)]
    rfl
  · rw [exec_retryKey h, retryKey_eq hp hk, if_pos ((KeyEntry.failed_iff _).2 failed), if_pos room, h.answer (by rfl)]
    rfl
  · rw [exec_retryKey h, retryKey_eq hp hk, if_pos ((KeyEntry.failed_iff _).2 failed), if_neg (Nat.not_lt.2 full),
      h.answer (by rfl)]
    rfl
  · rw [exec_retryKey h, retryKey_eq hp hk, if_neg (mt (KeyEntry.failed_iff _).1 notFailed), h.answer (by rfl)]
    rfl
  · rw [exec_retryKey h, retryKey_of_le outside, h.answer (by rfl)]
    rfl

end Sys2Proof.Machine
end

section
/-!
PROOFS, what the circuits do not see. The operations of the other blocks leave every circuit as it is: one equation for
each operation that branches, and `leads_circuits` for the commands made of them.
-/

namespace Sys2Proof.Machine

variable (s : State)

/-! ### Operations that the blocks share -/

@[simp] theorem State.reply_circuits (r : Reply) : (s.reply r).circuits = s.circuits := by
  rcases s.reply_cases r with ⟨-, e⟩ | ⟨-, e⟩ <;> simp [e]

@[simp] theorem State.reportAll_circuits (faults : List (FaultKind × Location)) :
    (s.reportAll faults).circuits = s.circuits := by
  rw [State.reportAll_eq, State.setRequests_circuits]

@[simp] theorem State.foldl_hand_circuits (rs : List Request) : (rs.foldl State.hand s).circuits = s.circuits := by
  rw [State.foldl_hand, State.setRequests_circuits]

@[simp] theorem State.resetTaken_circuits : s.resetTaken.circuits = s.circuits := by
  rcases s.resetTaken_cases with e | ⟨_, -, -, e⟩ <;> simp [e]

variable {s} in
theorem State.take_circuits {r : Request} {effect : State → State}
    (he : ∀ u : State, (effect u).circuits = u.circuits) : (s.take r effect).circuits = s.circuits := by
  rcases s.take_cases r effect with ⟨-, e⟩ | ⟨-, e⟩ <;> simp [e, he]

variable {s} in
theorem State.begin_circuits {code : Nat} {effect : List Byte → State → State}
    (he : ∀ ps, (effect ps s).circuits = s.circuits) : (s.begin code effect).circuits = s.circuits := by
  rcases s.begin_cases code effect with e | ⟨c, rest, -, -, -, ⟨-, e⟩ | ⟨-, e⟩⟩ <;> simp [e, he]

@[simp] theorem State.beginRead_circuits (code : Nat) (read : List Byte → State → Answer) :
    (s.beginRead code read).circuits = s.circuits :=
  State.begin_circuits fun ps => s.answer_circuits (read ps s)

/-! ### The crosspoint set and the walker -/

@[simp] theorem State.install_circuits (r : Install) : (s.install r).1.circuits = s.circuits := by
  obtain ⟨m, rs, e⟩ := s.install_eq r
  rw [e]
  rfl

@[simp] theorem State.retire_circuits (i : SlotIx) : (s.retire i).circuits = s.circuits := by
  unfold State.retire
  dsimp only
  split
  · simp
  · split <;> simp
  · simp
  · rfl

variable {s} in
theorem State.Handles.circuits {t : State} (h : s.Handles t) : t.circuits = s.circuits := by
  rw [h.others]
  rfl

@[simp] theorem State.applyLevels_circuits (ls : List KeyLevel) : (s.applyLevels ls).circuits = s.circuits := by
  obtain ⟨u, j, hu, -, e⟩ := s.applyLevels_eq ls
  rw [e, State.setJob_circuits, hu.circuits]

@[simp] theorem State.handle_circuits (e : KeyEvent) : (s.handle e).circuits = s.circuits := by
  rcases s.handle_eq e with e | ⟨u, j, hu, -, e⟩ <;> rw [e]
  rw [State.setJob_circuits, hu.circuits]

@[simp] theorem State.settleCalls_circuits (tag : Tag) (hs : List Hit) (ok : Bool) :
    (s.settleCalls tag hs ok).1.circuits = s.circuits :=
  ((State.Handles.refl s).settleCalls tag hs ok).1.circuits

@[simp] theorem State.startMaking_circuits (w : Walk) : (s.startMaking w).1.circuits = s.circuits :=
  (s.startMaking_eq w).1.circuits

@[simp] theorem State.endWalk_circuits (w : Walk) (rest : List KeyLevel) :
    (s.endWalk w rest).circuits = s.circuits := by
  simp [State.endWalk]

@[simp] theorem State.walkMissed_circuits (w : Walk) : (s.walkMissed w).circuits = s.circuits := by
  unfold State.walkMissed
  dsimp only
  split <;> simp

@[simp] theorem State.walkOutcome_circuits (w : Walk) (ok : Bool) : (s.walkOutcome w ok).circuits = s.circuits := by
  unfold State.walkOutcome
  cases w.tag <;> cases ok <;> cases w.reading.firstIgnored <;> simp

@[simp] theorem State.installHit_circuits (tag : Tag) (x : Hit) : (s.installHit tag x).1.circuits = s.circuits := by
  unfold State.installHit
  split <;> simp

/-! ### Cells, table RAM and the fault log -/

@[simp] theorem State.handCell_circuits (cell : List Byte) : (s.handCell cell).circuits = s.circuits := by
  unfold State.handCell State.admitCommand State.data
  dsimp only
  split
  · split <;> simp
  · split
    · split <;> simp
    all_goals simp
  all_goals rfl

@[simp] theorem State.readPlace_circuits (i : Place) (upsets : Upsets) :
    (s.readPlace i upsets).circuits = s.circuits := by
  unfold State.readPlace
  dsimp only
  split <;> simp

@[simp] theorem State.access_circuits (a : Access) (upsets : Upsets) : (s.access a upsets).circuits = s.circuits := by
  cases a <;> simp [State.access]

@[simp] theorem State.askPort_circuits (a : Access) (upsets : Upsets) :
    (s.askPort a upsets).circuits = s.circuits := by
  unfold State.askPort
  split <;> simp

@[simp] theorem State.writeRecord_circuits (l : Load) (r : Record) (rest : List Record) :
    (s.writeRecord l r rest).circuits = s.circuits := by
  unfold State.writeRecord State.closeLoad
  dsimp only
  split
  · simp
  · split <;> simp

@[simp] theorem State.newFault_circuits (kind : FaultKind) (loc : Location) (overflow : Bool) (log : FaultLog) :
    (s.newFault kind loc overflow log).circuits = s.circuits := by
  unfold State.newFault
  dsimp only
  split <;> simp

@[simp] theorem State.logFault_circuits (kind : FaultKind) (loc : Location) :
    (s.logFault kind loc).circuits = s.circuits := by
  unfold State.logFault
  dsimp only
  split
  · simp
  · split
    · simp
    · split <;> simp

/-! ### Station ports and the trunk -/

@[simp] theorem State.deskReply_circuits (p : Port) (seq : Byte) (status : Status) :
    (s.deskReply p seq status).circuits = s.circuits := by
  rcases s.deskReply_cases p seq status with e | ⟨-, -, e⟩ <;> rw [e]
  rfl

@[simp] theorem State.dropPort_circuits (p : Port) : (s.dropPort p).circuits = s.circuits := by
  simp [State.dropPort_eq]

@[simp] theorem State.goDown_circuits (p : Port) : (s.goDown p).circuits = s.circuits := by
  unfold State.goDown
  split <;> simp

@[simp] theorem State.lostFrame_circuits (p : Port) (held : Bool) : (s.lostFrame p held).circuits = s.circuits := by
  unfold State.lostFrame
  dsimp only
  split
  · simp
  all_goals split <;> simp

@[simp] theorem State.foldl_talkEdge_circuits (p : Port) (before after : BitVec 7) (ks : List Key) :
    (ks.foldl (State.talkEdge p before after) s).circuits = s.circuits :=
  (congrArg State.circuits (State.foldl_talkEdge p before after ks s)).trans rfl

@[simp] theorem State.answerEdge_circuits (p : Port) (l : CrewLamp) (was is : Bool) :
    (s.answerEdge p l was is).circuits = s.circuits := by
  unfold State.answerEdge
  split <;> simp

@[simp] theorem State.edges_circuits (p : Port) (before after : BitVec 7) :
    (s.edges p before after).circuits = s.circuits := by
  simp [State.edges]

@[simp] theorem State.deskMessage_circuits (p : Port) (bytes : List Byte) :
    (s.deskMessage p bytes).circuits = s.circuits := by
  unfold State.deskMessage
  split
  · dsimp only
    split <;> simp
  · rfl

@[simp] theorem State.deskByte_circuits (p : Port) (u : Uplink) : (s.deskByte p u).circuits = s.circuits := by
  unfold State.deskByte
  dsimp only
  split
  · split <;> simp
  · rfl

@[simp] theorem State.goodFrame_circuits (p : Port) (u : Uplink) : (s.goodFrame p u).circuits = s.circuits := by
  unfold State.goodFrame
  dsimp only
  split
  · simp
  · split <;> simp
  · simp

@[simp] theorem State.loseFrame_circuits (held : Period) : (s.loseFrame held).circuits = s.circuits := by
  unfold State.loseFrame
  dsimp only
  split <;> rfl

@[simp] theorem State.takeTrunkFrame_circuits (f : TrunkFrame) : (s.takeTrunkFrame f).circuits = s.circuits := by
  unfold State.takeTrunkFrame
  dsimp only
  split <;> simp

end Sys2Proof.Machine
end

section
/-!
PROOFS, the commands of the other blocks leave every circuit as it is.
-/

namespace Sys2Proof

/-- The commands of the cue engine, pin reset, and the frame start, which marks the deadlines that it reaches. The
others change no circuit. -/
def Instr.ofCircuits : Instr → Bool
  | .pinReset _ | .frameStart | .lostMarkSet _ | .lostMarkClear _ | .standbyRequest _ _ | .goRequest _ _
  | .cancelRequest _ _ | .answer _ _ | .standbyTimerExpiry _ | .goHoldExpiry _ | .goNext _ | .standbyNext _ | .back _
  | .skip _ | .circuitAbort | .circuitSetup | .cueStandby | .cueGo | .cueCancel | .cueNext => true
  | _ => false

namespace Machine

/-- The step leaves every circuit as it is. -/
def State.SameCircuits (s t : State) : Prop := t.circuits = s.circuits

/-! ### Events -/

theorem circuits_trunkArrival (bytes : List Byte) : Leads State.SameCircuits (.trunkArrival bytes) := by
  refine fun s => ⟨_, rfl, ?_⟩
  unfold State.SameCircuits
  split <;> simp

theorem circuits_missingFrame : Leads State.SameCircuits .missingFrame := by
  refine fun s => ⟨_, rfl, ?_⟩
  unfold State.SameCircuits
  split <;> simp

theorem circuits_linkReport (p : Port) (report : UplinkReport) : Leads State.SameCircuits (.linkReport p report) := by
  refine fun s => ⟨_, rfl, ?_⟩
  unfold State.SameCircuits
  split
  · rfl
  · split
    · simp
    · split <;> simp

theorem circuits_statePost (p : Port) : Leads State.SameCircuits (.statePost p) := by
  refine fun s => ⟨_, rfl, ?_⟩
  unfold State.SameCircuits
  dsimp only
  split <;> rfl

theorem circuits_keyEventTake : Leads State.SameCircuits .keyEventTake := by
  refine fun s => ⟨_, rfl, ?_⟩
  unfold State.SameCircuits
  split
  · rfl
  · split <;> simp

theorem circuits_walkStart (upsets : Upsets) : Leads State.SameCircuits (.walkStart upsets) := by
  refine fun s => ⟨_, rfl, ?_⟩
  unfold State.SameCircuits
  split
  · split <;> simp
  all_goals rfl

theorem circuits_walkEnd : Leads State.SameCircuits .walkEnd := by
  refine fun s => ⟨_, rfl, ?_⟩
  unfold State.SameCircuits
  split
  · split
    · split
      · rfl
      · split
        · split
          · simp
          · dsimp only
            split <;> simp
        · simp
    · simp
    · rfl
  all_goals rfl

theorem circuits_crosspointInstall : Leads State.SameCircuits .crosspointInstall := by
  refine fun s => ⟨_, rfl, ?_⟩
  unfold State.SameCircuits
  split
  · split <;> simp
  · simp
  · rfl

theorem circuits_removeKey (p : Port) (k : Key) : Leads State.SameCircuits (.removeKey p k) := by
  refine fun s => ⟨_, rfl, ?_⟩
  unfold State.SameCircuits
  split
  · rfl
  · split <;> simp [State.takeRemoveKey]

theorem circuits_busyLampRequest (p : Port) (k : Key) : Leads State.SameCircuits (.busyLampRequest p k) := by
  refine fun s => ⟨_, rfl, State.take_circuits fun u => ?_⟩
  split
  · split <;> rfl
  all_goals rfl

theorem circuits_removePortKeys (p : Port) : Leads State.SameCircuits (.removePortKeys p) := by
  refine fun s => ⟨_, rfl, ?_⟩
  unfold State.SameCircuits
  split
  · rfl
  · exact State.take_circuits fun u => by simp

theorem circuits_removeCircuit (c : CircuitIx) : Leads State.SameCircuits (.removeCircuit c) := by
  refine fun s => ⟨_, rfl, ?_⟩
  unfold State.SameCircuits
  split
  · rfl
  · exact State.take_circuits fun u => by simp

theorem circuits_portRowReset (p : Port) : Leads State.SameCircuits (.portRowReset p) := by
  refine fun s => ⟨_, rfl, ?_⟩
  unfold State.SameCircuits
  split
  · exact State.take_circuits fun u => by simp
  · rfl

theorem circuits_ramInitialisationEnd : Leads State.SameCircuits .ramInitialisationEnd := by
  refine fun s => ⟨_, rfl, ?_⟩
  unfold State.SameCircuits
  split <;> rfl

theorem circuits_tablePortGrant (upsets : Upsets) : Leads State.SameCircuits (.tablePortGrant upsets) := by
  refine fun s => ⟨_, rfl, ?_⟩
  unfold State.SameCircuits
  split
  · split <;> simp
  all_goals rfl

theorem circuits_recordWrite : Leads State.SameCircuits .recordWrite := by
  refine fun s => ⟨_, rfl, ?_⟩
  unfold State.SameCircuits
  split
  · split
    · split <;> simp
    · rfl
  all_goals rfl

theorem circuits_loadTimerExpiry : Leads State.SameCircuits .loadTimerExpiry := by
  refine fun s => ⟨_, rfl, ?_⟩
  unfold State.SameCircuits
  split
  · split <;> simp [State.closeLoad]
  all_goals rfl

theorem circuits_unknownCommand : Leads State.SameCircuits .unknownCommand := by
  refine fun s => ⟨_, rfl, ?_⟩
  unfold State.SameCircuits
  split
  · rfl
  · split <;> simp

theorem circuits_portResync (p : Port) : Leads State.SameCircuits (.portResync p) := by
  refine fun s => ⟨_, rfl, State.take_circuits fun u => ?_⟩
  split <;> simp

/-! ### Commands of the management engine -/

section
variable (ps : List Byte) (s : State)

theorem softReset_circuits : (softReset ps s).circuits = s.circuits := by
  rw [softReset_eq]
  rfl

theorem portSetup_circuits : (portSetup ps s).circuits = s.circuits := by
  unfold portSetup
  split
  · dsimp only
    split <;> simp
  · simp

theorem laneMap_circuits : (laneMap ps s).circuits = s.circuits := by
  simp [laneMap]

theorem slotEnable_circuits : (slotEnable ps s).circuits = s.circuits := by
  unfold slotEnable
  dsimp only
  split <;> simp

theorem slotRetire_circuits : (slotRetire ps s).circuits = s.circuits := by
  unfold slotRetire
  split <;> simp

theorem installCrosspoint_circuits : (installCrosspoint ps s).circuits = s.circuits := by
  unfold installCrosspoint
  dsimp only
  split <;> simp

theorem removeCrosspoint_circuits : (removeCrosspoint ps s).circuits = s.circuits := by
  unfold removeCrosspoint
  split
  · simp
  · split
    · split <;> simp
    all_goals simp

theorem setGain_circuits : (setGain ps s).circuits = s.circuits := by
  unfold setGain
  dsimp only
  split
  · simp
  · split <;> simp

theorem directorySetup_circuits : (directorySetup ps s).circuits = s.circuits := by
  unfold directorySetup
  split <;> simp

theorem selectScene_circuits : (selectScene ps s).circuits = s.circuits := by
  unfold selectScene
  split <;> simp

theorem readRecord_circuits (upsets : Upsets) : (readRecord upsets ps s).circuits = s.circuits := by
  unfold readRecord
  split <;> simp

theorem writeRecords_circuits : (writeRecords ps s).circuits = s.circuits := by
  unfold writeRecords
  dsimp only
  split <;> simp

theorem retryKey_circuits : (retryKey ps s).circuits = s.circuits := by
  unfold retryKey
  split
  · split
    · split <;> simp
    · simp
  · simp

theorem cueListWrite_circuits : (cueListWrite ps s).circuits = s.circuits := by
  unfold cueListWrite
  dsimp only
  split
  · split <;> simp
  · simp

theorem cueListTruncate_circuits : (cueListTruncate ps s).circuits = s.circuits := by
  unfold cueListTruncate
  dsimp only
  split <;> simp

theorem cueCursor_circuits : (cueCursor ps s).circuits = s.circuits := by
  simp [cueCursor]

theorem readFaults_circuits : (readFaults ps s).circuits = s.circuits := by
  unfold readFaults
  dsimp only
  split <;> simp

theorem clearFaults_circuits : (clearFaults ps s).circuits = s.circuits := by
  simp [clearFaults]

theorem setLock_circuits (next : LockState → LockState) : (setLock next ps s).circuits = s.circuits := by
  simp [setLock]

end

/-! ### All of them -/

theorem leads_sameCircuits {i : Instr} (hi : i.ofCircuits = false) : Leads State.SameCircuits i := by
  cases i with
  | ramInitialisationEnd => exact circuits_ramInitialisationEnd
  | trunkArrival bytes => exact circuits_trunkArrival bytes
  | missingFrame => exact circuits_missingFrame
  | linkReport p report => exact circuits_linkReport p report
  | statePost p => exact circuits_statePost p
  | keyEventTake => exact circuits_keyEventTake
  | walkStart upsets => exact circuits_walkStart upsets
  | walkEnd => exact circuits_walkEnd
  | busyLampRequest p k => exact circuits_busyLampRequest p k
  | crosspointInstall => exact circuits_crosspointInstall
  | removeKey p k => exact circuits_removeKey p k
  | removePortKeys p => exact circuits_removePortKeys p
  | removeCircuit c => exact circuits_removeCircuit c
  | removeKeysAndCues => exact fun s => ⟨_, rfl, State.take_circuits fun _ => by simp⟩
  | portRowReset p => exact circuits_portRowReset p
  | unknownCommand => exact circuits_unknownCommand
  | identify => exact fun s => ⟨_, rfl, s.beginRead_circuits _ _⟩
  | softReset => exact fun s => ⟨_, rfl, State.begin_circuits fun ps => softReset_circuits ps s⟩
  | walkerReset => exact fun s => ⟨_, rfl, State.take_circuits fun _ => State.resetTaken_circuits _⟩
  | portResync p => exact circuits_portResync p
  | portSetup => exact fun s => ⟨_, rfl, State.begin_circuits fun ps => portSetup_circuits ps s⟩
  | portStatus => exact fun s => ⟨_, rfl, s.beginRead_circuits _ _⟩
  | laneMap => exact fun s => ⟨_, rfl, State.begin_circuits fun ps => laneMap_circuits ps s⟩
  | slotEnable => exact fun s => ⟨_, rfl, State.begin_circuits fun ps => slotEnable_circuits ps s⟩
  | slotRetire => exact fun s => ⟨_, rfl, State.begin_circuits fun ps => slotRetire_circuits ps s⟩
  | installCrosspoint => exact fun s => ⟨_, rfl, State.begin_circuits fun ps => installCrosspoint_circuits ps s⟩
  | removeCrosspoint => exact fun s => ⟨_, rfl, State.begin_circuits fun ps => removeCrosspoint_circuits ps s⟩
  | setGain => exact fun s => ⟨_, rfl, State.begin_circuits fun ps => setGain_circuits ps s⟩
  | readSlot => exact fun s => ⟨_, rfl, s.beginRead_circuits _ _⟩
  | directorySetup => exact fun s => ⟨_, rfl, State.begin_circuits fun ps => directorySetup_circuits ps s⟩
  | writeRecords => exact fun s => ⟨_, rfl, State.begin_circuits fun ps => writeRecords_circuits ps s⟩
  | readRecord upsets => exact fun s => ⟨_, rfl, State.begin_circuits fun ps => readRecord_circuits ps s upsets⟩
  | selectScene => exact fun s => ⟨_, rfl, State.begin_circuits fun ps => selectScene_circuits ps s⟩
  | tablePortGrant upsets => exact circuits_tablePortGrant upsets
  | recordWrite => exact circuits_recordWrite
  | loadTimerExpiry => exact circuits_loadTimerExpiry
  | retryKey => exact fun s => ⟨_, rfl, State.begin_circuits fun ps => retryKey_circuits ps s⟩
  | readCircuit => exact fun s => ⟨_, rfl, s.beginRead_circuits _ _⟩
  | cueListWrite => exact fun s => ⟨_, rfl, State.begin_circuits fun ps => cueListWrite_circuits ps s⟩
  | cueListTruncate => exact fun s => ⟨_, rfl, State.begin_circuits fun ps => cueListTruncate_circuits ps s⟩
  | cueCursor => exact fun s => ⟨_, rfl, State.begin_circuits fun ps => cueCursor_circuits ps s⟩
  | readCueList => exact fun s => ⟨_, rfl, s.beginRead_circuits _ _⟩
  | readLastCue => exact fun s => ⟨_, rfl, s.beginRead_circuits _ _⟩
  | readFaults => exact fun s => ⟨_, rfl, State.begin_circuits fun ps => readFaults_circuits ps s⟩
  | clearFaults => exact fun s => ⟨_, rfl, State.begin_circuits fun ps => clearFaults_circuits ps s⟩
  | lockShow => exact fun s => ⟨_, rfl, State.begin_circuits fun ps => setLock_circuits ps s _⟩
  | unlockShow => exact fun s => ⟨_, rfl, State.begin_circuits fun ps => setLock_circuits ps s _⟩
  | freezeShow => exact fun s => ⟨_, rfl, State.begin_circuits fun ps => setLock_circuits ps s _⟩
  | faultReport kind loc => exact fun s => ⟨_, rfl, State.take_circuits fun u => u.logFault_circuits kind loc⟩
  | _ => cases hi

end Machine

end Sys2Proof
end

section
/-!
PROOFS, the soundness of the cue circuits under every command: O58.
-/

namespace Sys2Proof.Machine

/-! ### One circuit -/

/-- What `Circuit.sound` asks of a circuit, named part by part. -/
structure Circuit.SoundParts (x : Circuit) : Prop where
  members : x.members.length ≤ 4
  distinct : (x.members.map fun m => (m.port, m.lamp)).Nodup
  history : x.history.length ≤ 8
  idle : x.state = .idle → x.cue = none ∧ x.late = false ∧ ∀ m ∈ x.members, m.answered = false
  holdDeadline : x.holdDeadline.isSome ↔ x.state = .go
  standbyDeadline : x.standbyDeadline.isSome → x.state = .standby
  pending : x.pending = true → x.state = .go
  pendingCue : x.pendingCue.isSome → x.pending = true
  hold : 1 ≤ x.hold

theorem Circuit.sound_iff (x : Circuit) : x.sound ↔ x.SoundParts := by
  constructor
  · rintro ⟨h1, h2, h3, h4, h5, h6, h7, h8, h9⟩
    exact ⟨h1, h2, h3, h4, h5, h6, h7, h8, h9⟩
  · rintro ⟨h1, h2, h3, h4, h5, h6, h7, h8, h9⟩
    exact ⟨h1, h2, h3, h4, h5, h6, h7, h8, h9⟩

/-- Marks do not count for which port and lamp a member is of. -/
theorem pairs_nodup_map {f : Member → Member} (hf : ∀ m, (f m).port = m.port ∧ (f m).lamp = m.lamp) {ms : List Member}
    (h : (ms.map fun m => (m.port, m.lamp)).Nodup) : ((ms.map f).map fun m => (m.port, m.lamp)).Nodup := by
  have same : ((fun m : Member => (m.port, m.lamp)) ∘ f) = fun m => (m.port, m.lamp) :=
    funext fun m => Prod.ext (hf m).1 (hf m).2
  rwa [List.map_map, same]

namespace Circuit.SoundParts

variable {x : Circuit}

theorem pending_of_not_go (h : x.SoundParts) (hs : x.state ≠ .go) : x.pending = false :=
  Bool.eq_false_iff.2 fun hp => hs (h.pending hp)

/-- The entry to STANDBY, with no standby pending (R87). -/
theorem enterStandby (h : x.SoundParts) (hp : x.pending = false) (cue : Option CueNumber) (clock : Stamp) :
    (x.enterStandby cue clock).SoundParts :=
  { h with
    members := (List.length_map _).trans_le h.members
    distinct := pairs_nodup_map (f := fun m => { m with answered := false }) (fun _ => ⟨rfl, rfl⟩) h.distinct
    idle := nofun
    holdDeadline := ⟨nofun, nofun⟩
    standbyDeadline := fun _ => rfl
    pending := fun hp' => absurd (hp.symm.trans hp') Bool.false_ne_true }

/-- The entry to IDLE (R96). -/
theorem enterIdle (h : x.SoundParts) : x.enterIdle.SoundParts :=
  { h with
    members := (List.length_map _).trans_le h.members
    distinct := pairs_nodup_map (f := fun m => { m with answered := false }) (fun _ => ⟨rfl, rfl⟩) h.distinct
    idle := fun _ => ⟨rfl, rfl, fun m hm => by
      obtain ⟨n, -, rfl⟩ := List.mem_map.1 hm
      rfl⟩
    holdDeadline := ⟨nofun, nofun⟩
    standbyDeadline := nofun
    pending := nofun
    pendingCue := nofun }

/-- The history keeps eight outcomes (R104). -/
theorem record (h : x.SoundParts) (kind : OutcomeKind) (clock : Stamp) : (x.record kind clock).SoundParts :=
  { h with history := List.length_take_le _ _ }

/-- An accepted GO (R92). -/
theorem enterGo (h : x.SoundParts) (cue : Option CueNumber) (clock : Stamp) : (x.enterGo cue clock).SoundParts :=
  { h with
    history := List.length_take_le _ _
    idle := nofun
    holdDeadline := ⟨fun _ => rfl, fun _ => rfl⟩
    standbyDeadline := nofun
    pending := nofun
    pendingCue := nofun }

/-- A standby becomes pending in GO (R88). -/
theorem standbyPending (h : x.SoundParts) (hs : x.state = .go) (cue : Option CueNumber) :
    ({ x with pending := true, pendingCue := cue } : Circuit).SoundParts :=
  { h with pending := fun _ => hs, pendingCue := fun _ => rfl }

/-- The pending standby is taken up (R95). -/
theorem pendingCleared (h : x.SoundParts) : ({ x with pending := false, pendingCue := none } : Circuit).SoundParts :=
  { h with pending := nofun, pendingCue := nofun }

/-- The standby timer of a circuit in STANDBY expires (R91). -/
theorem becomesLate (h : x.SoundParts) (hs : x.state = .standby) :
    ({ x with state := .late, standbyDeadline := none } : Circuit).SoundParts :=
  have notGo : x.state ≠ .go := hs ▸ nofun
  { h with
    idle := nofun
    holdDeadline := ⟨fun hd => absurd (h.holdDeadline.1 hd) notGo, nofun⟩
    standbyDeadline := nofun
    pending := fun hp => absurd (h.pending hp) notGo }

/-- Members that differ in their marks, those of an IDLE circuit in their lost marks alone. -/
theorem remark (h : x.SoundParts) {f : Member → Member} (hf : ∀ m, (f m).port = m.port ∧ (f m).lamp = m.lamp)
    (hi : x.state = .idle → ∀ m, (f m).answered = m.answered) :
    ({ x with members := x.members.map f } : Circuit).SoundParts :=
  { h with
    members := (List.length_map _).trans_le h.members
    distinct := pairs_nodup_map hf h.distinct
    idle := fun hs => by
      obtain ⟨hc, hl, ha⟩ := h.idle hs
      refine ⟨hc, hl, fun m hm => ?_⟩
      obtain ⟨n, hn, rfl⟩ := List.mem_map.1 hm
      rw [hi hs, ha n hn] }

/-- Lost marks are set and cleared in every state (R84). -/
theorem markLost (h : x.SoundParts) (p : Port) (lost : Bool) : (x.markLost p lost).SoundParts :=
  h.remark (fun m => by split <;> exact ⟨rfl, rfl⟩) fun _ m => by split <;> rfl

/-- A circuit in STANDBY or LATE becomes READY (R90). -/
theorem becomesReady (h : x.SoundParts) (hs : x.state = .standby ∨ x.state = .late) (late : Bool) :
    ({ x with state := .ready, late := late, standbyDeadline := none } : Circuit).SoundParts :=
  have notGo : x.state ≠ .go := by rcases hs with e | e <;> rw [e] <;> nofun
  { h with
    idle := nofun
    holdDeadline := ⟨fun hd => absurd (h.holdDeadline.1 hd) notGo, nofun⟩
    standbyDeadline := nofun
    pending := fun hp => absurd (h.pending hp) notGo }

/-- An answer reaches circuits in STANDBY and LATE alone (R89). -/
theorem answered (h : x.SoundParts) (p : Port) (l : CrewLamp) : (x.answered p l).SoundParts := by
  unfold Circuit.answered
  split
  · rename_i hs
    obtain ⟨hs, -⟩ := hs
    have notIdle : x.state ≠ .idle := by rcases hs with e | e <;> rw [e] <;> nofun
    have marked := h.remark
      (f := fun m => if m.port = p ∧ m.lamp = l ∧ m.lost = false then { m with answered := true } else m)
      (fun m => by split <;> exact ⟨rfl, rfl⟩) fun hi => absurd hi notIdle
    dsimp only
    split
    · exact marked.becomesReady hs _
    · exact marked
  · exact h

/-- The clock marks the deadlines that it reaches (R148). -/
theorem tick (h : x.SoundParts) (clock : Stamp) : (x.tick clock).SoundParts :=
  { h with
    holdDeadline := by simpa [Circuit.tick] using h.holdDeadline
    standbyDeadline := by simpa [Circuit.tick] using h.standbyDeadline }

/-- CIRCUIT SETUP replaces the setup of an IDLE circuit (R85). -/
theorem setup (h : x.SoundParts) (hs : x.state = .idle) {pairs : List (Port × CrewLamp)} (hl : pairs.length ≤ 4)
    (hd : pairs.Nodup) (lost : Port → Bool) (rule : AnswerRule) (timeout hold : Nat) (goUnanswered : Bool) :
    ({ x with
      members := pairs.map fun m => ⟨m.1, m.2, false, lost m.1⟩
      rule := rule
      timeout := timeout
      hold := max 1 hold
      goUnanswered := goUnanswered } : Circuit).SoundParts :=
  { h with
    members := (List.length_map _).trans_le hl
    distinct := by
      have same : ((fun m : Member => (m.port, m.lamp)) ∘ fun m => ⟨m.1, m.2, false, lost m.1⟩) = id := rfl
      rwa [List.map_map, same, List.map_id]
    idle := fun _ => by
      obtain ⟨hc, hlate, -⟩ := h.idle hs
      refine ⟨hc, hlate, fun m hm => ?_⟩
      obtain ⟨n, -, rfl⟩ := List.mem_map.1 hm
      rfl
    hold := Nat.le_max_left 1 hold }

/-- What a STANDBY makes of a circuit (R88). -/
theorem warned (h : x.SoundParts) (cue : Option CueNumber) (clock : Stamp) : (x.warned cue clock).SoundParts := by
  unfold Circuit.warned
  split
  · rename_i hs
    split
    · exact h
    · exact h.enterStandby (h.pending_of_not_go (hs ▸ nofun)) _ _
  · exact h
  · exact h
  · exact h
  · exact h.standbyPending ‹_› _

end Circuit.SoundParts

/-- The members in the parameters of CIRCUIT SETUP are at most four and are no pair twice (R85). -/
theorem membersDecode_sound {ps : List Byte} {pairs : List (Port × CrewLamp)} (h : membersDecode ps = some pairs) :
    pairs.length ≤ 4 ∧ pairs.Nodup := by
  unfold membersDecode at h
  split at h
  · rename_i a b c d _ _ _ _
    dsimp only at h
    split at h
    · cases h
      refine ⟨?_, ‹_›⟩
      have one (o : Option (Port × CrewLamp)) : o.toList.length ≤ 1 := by cases o <;> simp
      have := one a
      have := one b
      have := one c
      have := one d
      simp only [List.length_append]
      omega
    · cases h
  · cases h

/-! ### The circuits of a state -/

/-- Every circuit is sound. -/
def State.CircuitsSound (s : State) : Prop := ∀ c : CircuitIx, s.circuits[c].SoundParts

namespace State.CircuitsSound

variable {s t : State}

/-- A step that leaves the circuits alone. -/
theorem of_eq (h : s.CircuitsSound) (e : t.circuits = s.circuits) : t.CircuitsSound := fun c => by
  rw [e]
  exact h c

theorem setCircuits {v : Vector Circuit 24} (hv : ∀ c : CircuitIx, v[c].SoundParts) :
    (s.setCircuits v).CircuitsSound := hv

/-- Every circuit changes by an operation that keeps it sound. -/
theorem setEach (h : s.CircuitsSound) {f : CircuitIx → Circuit → Circuit}
    (hf : ∀ c x, x.SoundParts → (f c x).SoundParts) : (s.setCircuits (each s.circuits f)).CircuitsSound :=
  setCircuits fun c => by
    rw [Fin.getElem_fin, each_get]
    exact hf c _ (h c)

theorem setCircuit (h : s.CircuitsSound) (c : CircuitIx) {x : Circuit} (hx : x.SoundParts) :
    (s.setCircuit c x).CircuitsSound := fun d => by
  simp only [State.setCircuit_circuits, Fin.getElem_fin, put_get]
  split
  · exact hx
  · exact h d

theorem offerCueEvent (h : s.CircuitsSound) (c : CircuitIx) (cue : Option CueNumber) :
    (s.offerCueEvent c cue).CircuitsSound := h.of_eq (s.offer_circuits _)

theorem offerChanges (h : s.CircuitsSound) (before : Vector Circuit 24) : (s.offerChanges before).CircuitsSound :=
  h.of_eq (by rw [State.offerChanges_eq, State.foldl_offer_circuits])

theorem take (h : s.CircuitsSound) {r : Request} {effect : State → State}
    (he : ∀ u : State, u.CircuitsSound → (effect u).CircuitsSound) : (s.take r effect).CircuitsSound := by
  rcases s.take_cases r effect with ⟨-, e⟩ | ⟨-, e⟩ <;> rw [e]
  · exact he _ (h.of_eq rfl)
  · exact h

theorem begin (h : s.CircuitsSound) {code : Nat} {effect : List Byte → State → State}
    (he : ∀ ps, (effect ps s).CircuitsSound) : (s.begin code effect).CircuitsSound := by
  rcases s.begin_cases code effect with e | ⟨c, rest, -, -, -, ⟨-, e⟩ | ⟨-, e⟩⟩ <;> rw [e]
  · exact h
  · exact h.of_eq (s.answer_circuits _)
  · exact he _

theorem takeDesk (h : s.CircuitsSound) (p : Port) (r : DeskRequest) {effect : State → State × Status}
    (he : ∀ u : State, u.CircuitsSound → (effect u).1.CircuitsSound) : (s.takeDesk p r effect).CircuitsSound := by
  unfold State.takeDesk
  split
  · rename_i seq wanted r' _
    split
    · have taken := he (s.setRequests (s.requests.erase (.desk p seq wanted r))) (h.of_eq rfl)
      dsimp only
      split
      · exact taken.of_eq (State.deskReply_circuits _ _ _ _)
      · exact taken
    · exact h
  · exact h

/-! ### Requests to the cue engine and the cue list -/

theorem standbyQuiet (h : s.CircuitsSound) (c : CircuitIx) (cue : Option CueNumber) :
    (s.standbyQuiet c cue).1.CircuitsSound := by
  have stored := h.setCircuit c ((h c).warned cue s.clock)
  rw [State.standbyQuiet_eq]
  dsimp only
  split
  · exact stored.of_eq (State.postCueOpen_circuits _ _)
  · exact stored

theorem standby (h : s.CircuitsSound) (c : CircuitIx) (cue : Option CueNumber) : (s.standby c cue).1.CircuitsSound :=
  (h.standbyQuiet c cue).offerChanges _

theorem goQuiet (h : s.CircuitsSound) (c : CircuitIx) (cue : Option CueNumber) :
    (s.goQuiet c cue).1.CircuitsSound := by
  unfold State.goQuiet
  dsimp only
  split
  · exact h.setCircuit c ((h c).enterGo cue _)
  · exact h

theorem go (h : s.CircuitsSound) (c : CircuitIx) (cue : Option CueNumber) : (s.go c cue).1.CircuitsSound :=
  (h.goQuiet c cue).offerChanges _

theorem toIdle (h : s.CircuitsSound) (c : CircuitIx) {x : Circuit} (hx : x.SoundParts) :
    (s.toIdle c x).CircuitsSound :=
  ((h.setCircuit c hx.enterIdle).offerCueEvent c x.cue).of_eq (by rw [State.toIdle, State.suppress_circuits]; rfl)

theorem cancel (h : s.CircuitsSound) (c : CircuitIx) : (s.cancel c).1.CircuitsSound := by
  unfold State.cancel
  dsimp only
  split
  · exact h.toIdle c ((h c).record _ _)
  · exact h.toIdle c ((h c).record _ _)
  · exact h.toIdle c ((h c).record _ _)
  · exact h.toIdle c (h c)
  · exact h

theorem standbyAll (h : s.CircuitsSound) (cue : CueNumber) (cs : List CircuitIx) :
    (State.standbyAll cue cs s).1.CircuitsSound := by
  induction cs generalizing s with
  | nil => exact h
  | cons c rest ih => exact ih (h.standbyQuiet c _)

theorem goAll (h : s.CircuitsSound) (cue : CueNumber) (cs : List CircuitIx) : (s.goAll cue cs).CircuitsSound := by
  unfold State.goAll
  induction cs generalizing s with
  | nil => exact h
  | cons c rest ih => exact ih (h.goQuiet c _)

theorem autoStandby (h : s.CircuitsSound) : s.autoStandby.1.CircuitsSound := by
  unfold State.autoStandby
  split
  · split
    · exact h.standbyAll _ _
    · exact h
  · exact h

theorem goNext (h : s.CircuitsSound) : s.goNext.1.CircuitsSound := by
  unfold State.goNext
  split
  · exact h
  · rename_i e _
    split
    · exact h
    · have moved (l : CueList) : ((s.goAll e.cue e.circuitList).setCueList l).CircuitsSound :=
        (h.goAll e.cue e.circuitList).of_eq rfl
      exact (moved _).autoStandby.offerChanges _

theorem standbyNext (h : s.CircuitsSound) : s.standbyNext.1.CircuitsSound := by
  unfold State.standbyNext
  split
  · exact h
  · dsimp only
    split <;> exact (h.standbyAll _ _).offerChanges _

theorem back (h : s.CircuitsSound) : s.back.1.CircuitsSound := by
  unfold State.back
  split
  · exact h
  · exact h.of_eq rfl

theorem skip (h : s.CircuitsSound) : s.skip.1.CircuitsSound := by
  unfold State.skip
  split
  · exact h
  · exact h.of_eq rfl

/-! ### Lost marks, the soft reset and CIRCUIT SETUP -/

theorem takeLostMark (h : s.CircuitsSound) (p : Port) (lost : Bool) : (s.takeLostMark p lost).CircuitsSound := by
  unfold State.takeLostMark
  split
  · exact h.take fun u hu => hu.setEach fun _ _ hx => hx.markLost p lost
  · exact h

theorem abortCircuit (h : s.CircuitsSound) (c : CircuitIx) : (s.abortCircuit c).CircuitsSound := by
  unfold State.abortCircuit
  dsimp only
  split
  · exact h
  · exact (h.setCircuit c ((h c).record _ _).enterIdle).offerCueEvent _ _

theorem abortCircuits (h : s.CircuitsSound) (cs : List CircuitIx) : (cs.foldl State.abortCircuit s).CircuitsSound := by
  induction cs generalizing s with
  | nil => exact h
  | cons c rest ih => exact ih (h.abortCircuit c)

theorem circuitSetup (h : s.CircuitsSound) (ps : List Byte) : (circuitSetup ps s).CircuitsSound := by
  unfold Machine.circuitSetup
  dsimp only
  split
  · rename_i c pairs rule goUnanswered _ hm _ _
    obtain ⟨hl, hd⟩ := membersDecode_sound hm
    split
    · exact (h.setCircuit c ((h c).setup ‹_› hl hd (fun p => !s.isUp p) rule _ _ goUnanswered)).of_eq
        (State.answer_circuits _ _)
    · exact h.of_eq (State.answer_circuits _ _)
  · exact h.of_eq (State.answer_circuits _ _)

theorem cueCommand (h : s.CircuitsSound) {f : CircuitIx → State → State × Status}
    (hf : ∀ c, (f c s).1.CircuitsSound) (ps : List Byte) : (cueCommand f ps s).CircuitsSound := by
  unfold Machine.cueCommand
  split
  · exact h.of_eq (State.answer_circuits _ _)
  · exact (hf _).of_eq (State.answer_circuits _ _)

theorem cueNext (h : s.CircuitsSound) (ps : List Byte) : (cueNext ps s).CircuitsSound := by
  refine of_eq ?_ (State.answer_circuits _ _)
  rcases listRequest_cases (byteAt ps 0).toNat with e | e | e | e | e <;> rw [e]
  · exact h.goNext
  · exact h.standbyNext
  · exact h.back
  · exact h.skip
  · exact h

theorem frameStart (h : s.CircuitsSound) : s.frameStart.CircuitsSound :=
  of_eq (s := s.setCircuits (each s.circuits fun _ x => x.tick (s.trunk.clock + 1)))
    (h.setEach fun _ _ hx => hx.tick _) s.frameStart_circuits

end State.CircuitsSound

/-! ### Every command -/

/-- The step keeps the circuits sound. -/
def State.KeepsCircuits (s t : State) : Prop := s.CircuitsSound → t.CircuitsSound

theorem keepsCircuits_frameStart : Leads State.KeepsCircuits .frameStart := by
  refine fun s => ⟨_, rfl, fun h => ?_⟩
  split
  · exact h.frameStart
  · exact h

theorem keepsCircuits_lostMarkSet (p : Port) : Leads State.KeepsCircuits (.lostMarkSet p) := by
  refine fun s => ⟨_, rfl, fun h => ?_⟩
  split
  · have left : (s.setRequests (dropAnswers p s.requests)).CircuitsSound := h.of_eq rfl
    exact left.takeLostMark p true
  · exact h

theorem keepsCircuits_answer (p : Port) (l : CrewLamp) : Leads State.KeepsCircuits (.answer p l) := by
  refine fun s => ⟨_, rfl, fun h => ?_⟩
  split
  · exact h.take fun u hu => (hu.setEach fun _ _ hx => hx.answered p l).offerChanges _
  · exact h

theorem keepsCircuits_standbyTimerExpiry (c : CircuitIx) : Leads State.KeepsCircuits (.standbyTimerExpiry c) := by
  refine fun s => ⟨_, rfl, fun h => ?_⟩
  dsimp only
  split
  · rename_i hs
    exact (h.setCircuit c ((h c).becomesLate hs.1)).offerCueEvent _ _
  · exact h

theorem keepsCircuits_goHoldExpiry (c : CircuitIx) : Leads State.KeepsCircuits (.goHoldExpiry c) := by
  refine fun s => ⟨_, rfl, fun h => ?_⟩
  dsimp only
  split
  · split
    · exact (h.setCircuit c ((h c).pendingCleared.enterStandby rfl _ _)).offerCueEvent _ _
    · exact h.toIdle c (h c)
  · exact h

theorem leads_keepsCircuits (i : Instr) : Leads State.KeepsCircuits i := by
  cases i with
  | pinReset straps => exact fun s => ⟨_, rfl, fun _ c => by
      rw [State.initial_circuit]
      exact (Circuit.sound_iff _).1 Circuit.initial_sound⟩
  | frameStart => exact keepsCircuits_frameStart
  | lostMarkSet p => exact keepsCircuits_lostMarkSet p
  | lostMarkClear p => exact fun s => ⟨_, rfl, fun h => h.takeLostMark p false⟩
  | standbyRequest p c => exact fun s => ⟨_, rfl, fun h => h.takeDesk p _ fun _ hu => hu.standby c none⟩
  | goRequest p c => exact fun s => ⟨_, rfl, fun h => h.takeDesk p _ fun _ hu => hu.go c none⟩
  | cancelRequest p c => exact fun s => ⟨_, rfl, fun h => h.takeDesk p _ fun _ hu => hu.cancel c⟩
  | answer p l => exact keepsCircuits_answer p l
  | standbyTimerExpiry c => exact keepsCircuits_standbyTimerExpiry c
  | goHoldExpiry c => exact keepsCircuits_goHoldExpiry c
  | goNext p => exact fun s => ⟨_, rfl, fun h => h.takeDesk p _ fun _ hu => hu.goNext⟩
  | standbyNext p => exact fun s => ⟨_, rfl, fun h => h.takeDesk p _ fun _ hu => hu.standbyNext⟩
  | back p => exact fun s => ⟨_, rfl, fun h => h.takeDesk p _ fun _ hu => hu.back⟩
  | skip p => exact fun s => ⟨_, rfl, fun h => h.takeDesk p _ fun _ hu => hu.skip⟩
  | circuitAbort =>
    exact fun s => ⟨_, rfl, fun h => h.take fun _ hu => (hu.abortCircuits _).of_eq (State.resetTaken_circuits _)⟩
  | circuitSetup => exact fun s => ⟨_, rfl, fun h => h.begin h.circuitSetup⟩
  | cueStandby => exact fun s => ⟨_, rfl, fun h => h.begin (h.cueCommand fun c => h.standby c none)⟩
  | cueGo => exact fun s => ⟨_, rfl, fun h => h.begin (h.cueCommand fun c => h.go c none)⟩
  | cueCancel => exact fun s => ⟨_, rfl, fun h => h.begin (h.cueCommand fun c => h.cancel c)⟩
  | cueNext => exact fun s => ⟨_, rfl, fun h => h.begin h.cueNext⟩
  | _ =>
    exact fun s =>
      have ⟨t, ht, same⟩ := leads_sameCircuits rfl s
      ⟨t, ht, fun h => h.of_eq same⟩

/-- Settles O58: the commands of other blocks leave the circuits alone, and each change of a circuit keeps it sound. -/
theorem circuitsStaySound : Obligations.CircuitsStaySound := by
  unfold Obligations.CircuitsStaySound
  simp only [Circuit.sound_iff]
  exact kept_of_leads (fun _ _ h => h) leads_keepsCircuits

end Sys2Proof.Machine
end

section
/-!
PROOFS, STANDBY and GO given to one circuit (R87, R88, R92, R93, R98, R99, R104): O34 and O35.
-/

namespace Sys2Proof.Machine

/-! ### One circuit replaced, and its notice -/

theorem State.setCircuit_get (s : State) (c : CircuitIx) (x : Circuit) (b : CircuitIx) :
    (s.setCircuit c x).circuits[b] = if b = c then x else s.circuits[b] := by
  simp only [State.setCircuit_circuits, Fin.getElem_fin, put_get, Fin.ext_iff, eq_comm]

theorem State.offerChanges_self (s : State) : s.offerChanges s.circuits = s := s.offerChanges_none fun _ => rfl

section
variable {s t : State} {c : CircuitIx} {x : Circuit}

/-- A circuit replaced by one in the same state offers nothing (R98). -/
theorem State.offerChanges_of_same (ht : t.circuits = put s.circuits c x) (hx : x.state = s.circuits[c].state) :
    t.offerChanges s.circuits = t := by
  refine t.offerChanges_none fun d => ?_
  rw [ht]
  have stored := s.setCircuit_get c x d
  rw [State.setCircuit_circuits] at stored
  rw [stored]
  split
  · rename_i hd
    rw [hx, hd]
  · rfl

/-- A circuit replaced by one in another state offers its CUE_EVENT (R98). -/
theorem State.offerChanges_of_changed (ht : t.circuits = put s.circuits c x) (hx : x.state ≠ s.circuits[c].state) :
    t.offerChanges s.circuits = t.offer (.cueEvent c x.state x.cue x.late t.trunk.clock) := by
  have stored (d : CircuitIx) : t.circuits[d] = if d = c then x else s.circuits[d] := by
    rw [ht]
    exact s.setCircuit_get c x d
  have here : t.circuits[c] = x := (stored c).trans (if_pos rfl)
  rw [t.offerChanges_one (here ▸ Ne.symm hx) fun d hd => by rw [stored d, if_neg hd], State.cueEvent, here]
  rfl

end

/-! ### STANDBY (R87, R88) -/

/-- The entry to STANDBY, field by field (R87). -/
theorem Circuit.enterStandby_eq (x : Circuit) (cue : Option CueNumber) (clock : Stamp) :
    x.enterStandby cue clock = { x with
      state := .standby, cue := cue, late := false, holdDeadline := none
      members := x.members.map fun m => { m with answered := false }
      standbyDeadline := if x.timeout = 0 then none
        else some ⟨clock + BitVec.ofNat 32 (x.timeout * 16000), false⟩ } := rfl

/-- A CUE_OPEN joins the key event queue below 32 events, and a QUEUE_FULL is reported otherwise (R61, R99). -/
theorem State.postCueOpen_eq (s : State) (c : CircuitIx) : s.postCueOpen c =
    if s.walker.queue.length < 32 then s.withQueue (s.walker.queue ++ [.cueOpen c])
    else s.setRequests (s.requests ++ [.fault .queueFull (.circuit c)]) := rfl

section
variable {s : State} {c : CircuitIx} (cue : Option CueNumber)

/-- STANDBY to an IDLE circuit without members is refused (R88). -/
theorem State.standby_of_empty (hi : s.circuits[c].state = .idle) (hm : s.circuits[c].members = []) :
    s.standby c cue = (s, .emptyCircuit) := by
  have quiet : s.standbyQuiet c cue = (s, .emptyCircuit) := by
    unfold State.standbyQuiet
    simp only [hi, hm, List.isEmpty_nil, if_true]
  rw [State.standby, quiet, State.offerChanges_self]

/-- STANDBY to an IDLE circuit with members (R87, R88, R98, R99). -/
theorem State.standby_of_members (hi : s.circuits[c].state = .idle) (hm : s.circuits[c].members ≠ []) :
    s.standby c cue = ((((s.setCircuit c (s.circuits[c].enterStandby cue s.trunk.clock)).postCueOpen c).offer
      (.cueEvent c .standby cue false s.trunk.clock)), .done) := by
  have quiet : s.standbyQuiet c cue =
      ((s.setCircuit c (s.circuits[c].enterStandby cue s.trunk.clock)).postCueOpen c, .done) := by
    unfold State.standbyQuiet
    simp only [hi, List.isEmpty_iff, if_neg hm, State.clock_eq]
  have changed : (s.circuits[c].enterStandby cue s.trunk.clock).state ≠ s.circuits[c].state := by
    rw [hi]
    nofun
  rw [State.standby, quiet]
  dsimp only
  rw [State.offerChanges_of_changed (State.postCueOpen_circuits _ _) changed, State.postCueOpen_trunk]
  rfl

/-- STANDBY to a circuit that is called already changes nothing (R88). -/
theorem State.standby_of_called (h : s.circuits[c].state = .standby ∨ s.circuits[c].state = .ready
    ∨ s.circuits[c].state = .late) : s.standby c cue = (s, .done) := by
  have quiet : s.standbyQuiet c cue = (s, .done) := by
    unfold State.standbyQuiet
    rcases h with h | h | h <;> simp only [h]
  rw [State.standby, quiet, State.offerChanges_self]

/-- STANDBY to a circuit in GO becomes pending (R88). -/
theorem State.standby_of_go (h : s.circuits[c].state = .go) :
    s.standby c cue = (s.setCircuit c { s.circuits[c] with pending := true, pendingCue := cue }, .done) := by
  have quiet : s.standbyQuiet c cue =
      (s.setCircuit c { s.circuits[c] with pending := true, pendingCue := cue }, .done) := by
    unfold State.standbyQuiet
    simp only [h]
  have same := State.offerChanges_of_same (State.setCircuit_circuits s c
    { s.circuits[c] with pending := true, pendingCue := cue }) rfl
  rw [State.standby, quiet]
  exact Prod.ext same rfl

end

/-- Settles O34. -/
theorem standbyRule : Obligations.StandbyRule := by
  refine ⟨fun s c x => ⟨rfl, s.setCircuit_get c x⟩, fun s c cue => ⟨State.standby_of_empty cue, fun hi hm => ?_,
    State.standby_of_called cue, State.standby_of_go cue⟩⟩
  rw [State.standby_of_members cue hi hm, State.postCueOpen_eq, Circuit.enterStandby_eq]
  rfl

/-! ### GO (R92, R93) -/

/-- The entry to GO, field by field (R92, R104). -/
theorem Circuit.enterGo_eq (x : Circuit) (cue : Option CueNumber) (clock : Stamp) :
    let number := match cue with | some n => some n | none => x.cue
    x.enterGo cue clock = { x with
      state := .go, cue := number, standbyDeadline := none
      holdDeadline := some ⟨clock + BitVec.ofNat 32 (x.hold * 1600), false⟩
      pending := false, pendingCue := none
      history := (⟨x.goOutcome, number, clock⟩ :: x.history).take 8 } := by
  cases cue <;> rfl

section
variable {s : State} {c : CircuitIx} (cue : Option CueNumber)

/-- A GO that the check permits (R92, R98). -/
theorem State.go_of_permitted (h : s.circuits[c].goCheck = .done) (hs : s.circuits[c].state ≠ .go) :
    s.go c cue = ((s.setCircuit c (s.circuits[c].enterGo cue s.trunk.clock)).offer
      (.cueEvent c .go (s.circuits[c].enterGo cue s.trunk.clock).cue s.circuits[c].late s.trunk.clock), .done) := by
  have quiet : s.goQuiet c cue = (s.setCircuit c (s.circuits[c].enterGo cue s.trunk.clock), .done) := if_pos h
  rw [State.go, quiet, State.offerChanges_of_changed (State.setCircuit_circuits s c _) (Ne.symm hs)]
  rfl

/-- A GO that the check refuses changes nothing (R93). -/
theorem State.go_of_refused (h : s.circuits[c].goCheck ≠ .done) : s.go c cue = (s, s.circuits[c].goCheck) := by
  have quiet : s.goQuiet c cue = (s, s.circuits[c].goCheck) := if_neg h
  rw [State.go, quiet, State.offerChanges_self]

end

section
variable {x : Circuit}

theorem Circuit.goCheck_ready (h : x.state = .ready) : x.goCheck = .done := by
  rw [Circuit.goCheck, h]

theorem Circuit.goCheck_waiting (h : x.state = .standby ∨ x.state = .late) :
    x.goCheck = if x.goUnanswered then .done else .unanswered := by
  rcases h with h | h <;> rw [Circuit.goCheck, h]

theorem Circuit.goCheck_idle (h : x.state = .idle) : x.goCheck = .notInStandby := by
  rw [Circuit.goCheck, h]

theorem Circuit.goCheck_go (h : x.state = .go) : x.goCheck = .already := by
  rw [Circuit.goCheck, h]

theorem Circuit.goOutcome_ready (h : x.state = .ready) (hl : x.late = false) : x.goOutcome = .answered := by
  simp [Circuit.goOutcome, h, hl]

theorem Circuit.goOutcome_readyLate (h : x.state = .ready) (hl : x.late = true) : x.goOutcome = .lateAnswered := by
  simp [Circuit.goOutcome, h, hl]

theorem Circuit.goOutcome_waiting (h : x.state = .standby ∨ x.state = .late) : x.goOutcome = .unanswered :=
  if_neg (by rcases h with h | h <;> rw [h] <;> nofun)

end

/-- Settles O35. -/
theorem goRule : Obligations.GoRule := by
  intro s c cue
  refine ⟨fun hs hl => ?_, fun hs hl => ?_, fun hs hg => ?_, fun hs hg => ?_, fun hs => ?_, fun hs => ?_⟩
  · have went := State.go_of_permitted cue (Circuit.goCheck_ready hs) (hs ▸ nofun)
    rw [Circuit.enterGo_eq, Circuit.goOutcome_ready hs hl] at went
    exact went
  · have went := State.go_of_permitted cue (Circuit.goCheck_ready hs) (hs ▸ nofun)
    rw [Circuit.enterGo_eq, Circuit.goOutcome_readyLate hs hl] at went
    exact went
  · have permitted := Circuit.goCheck_waiting hs
    have notGo : s.circuits[c].state ≠ .go := by rcases hs with h | h <;> rw [h] <;> nofun
    rw [hg] at permitted
    have went := State.go_of_permitted cue permitted notGo
    rw [Circuit.enterGo_eq, Circuit.goOutcome_waiting hs] at went
    exact went
  · have refused := Circuit.goCheck_waiting hs
    rw [hg] at refused
    rw [State.go_of_refused cue (refused ▸ nofun), refused]
    rfl
  · have refused := Circuit.goCheck_idle hs
    rw [State.go_of_refused cue (refused ▸ nofun), refused]
  · have refused := Circuit.goCheck_go hs
    rw [State.go_of_refused cue (refused ▸ nofun), refused]

end Sys2Proof.Machine
end

section
/-!
PROOFS, the cue and list requests of a desk and of the controller (R86, R113, R123, R124, R137): O37.
-/

namespace Sys2Proof.Machine

/-! ### A desk's request (R123, R137) -/

/-- What a request tells of a desk on port `p`. -/
def Request.deskOf (p : Port) : Request → Option (Byte × Bool × DeskRequest)
  | .desk q seq wanted r => if q = p then some (seq, wanted, r) else none
  | _ => none

theorem State.firstDesk_eq (s : State) (p : Port) : s.firstDesk p = s.requests.findSome? (Request.deskOf p) :=
  rfl

theorem Request.deskOf_eq_some {p : Port} {x : Request} {seq : Byte} {wanted : Bool} {r : DeskRequest} :
    x.deskOf p = some (seq, wanted, r) ↔ x = .desk p seq wanted r := by
  cases x <;> simp [Request.deskOf]

theorem Request.deskOf_eq_none {p : Port} {x : Request} : x.deskOf p = none ↔ ∀ q w d, x ≠ .desk p q w d := by
  rw [Option.eq_none_iff_forall_ne_some]
  exact ⟨fun h q w d e => h (q, w, d) (Request.deskOf_eq_some.2 e),
    fun h y e => h y.1 y.2.1 y.2.2 (Request.deskOf_eq_some.1 e)⟩

/-- The oldest request of a desk is the one that no other of its port stands before. -/
theorem State.firstDesk_eq_some {s : State} {p : Port} {seq : Byte} {wanted : Bool} {r : DeskRequest} :
    s.firstDesk p = some (seq, wanted, r) ↔ ∃ before after,
      s.requests = before ++ .desk p seq wanted r :: after ∧ ∀ q w d, Request.desk p q w d ∉ before := by
  rw [State.firstDesk_eq, List.findSome?_eq_some_iff]
  constructor
  · rintro ⟨before, x, after, hs, hx, hb⟩
    rw [Request.deskOf_eq_some] at hx
    subst hx
    exact ⟨before, after, hs, fun q w d hm => Request.deskOf_eq_none.1 (hb _ hm) q w d rfl⟩
  · rintro ⟨before, after, hs, hb⟩
    refine ⟨before, _, after, hs, Request.deskOf_eq_some.2 rfl, fun x hx => ?_⟩
    exact Request.deskOf_eq_none.2 fun q w d e => hb q w d (e ▸ hx)

/-- The result of a desk's request joins the reply buffer of a port that is UP and holds fewer than two replies, where
it is still wanted (R130, R137). -/
def State.replied (p : Port) (seq : Byte) (wanted : Bool) (out : State × Status) : State :=
  if wanted = true ∧ out.1.ports[p].link = .up ∧ out.1.ports[p].replies.length < 2 then
    out.1.setPort p { out.1.ports[p] with
      replies := out.1.ports[p].replies ++ [withSumCheck [0x80, seq, byte out.2.code]] }
  else out.1

/-- A desk's request that is the oldest of its port is carried out, and its result returns (R123, R137). -/
theorem State.takeDesk_of_first {s : State} {p : Port} {seq : Byte} {wanted : Bool} {r : DeskRequest}
    (h : s.firstDesk p = some (seq, wanted, r)) (effect : State → State × Status) : s.takeDesk p r effect =
      State.replied p seq wanted (effect (s.setRequests (s.requests.erase (.desk p seq wanted r)))) := by
  unfold State.takeDesk
  rw [h]
  dsimp only
  rw [if_pos rfl]
  cases wanted
  · exact (if_neg fun hw => Bool.false_ne_true hw.1).symm
  · simp only [if_true, State.replied, true_and]
    rfl

/-! ### The controller's cue commands (R124) -/

section
variable {s : State} {c : Command} {rest : List Command}

/-- A cue command on a circuit answers the result of its request. -/
theorem cueCommand_of_eq {code : Nat} (h : s.canRun code anyLock c rest) {f : CircuitIx → State → State × Status}
    (hf : ∀ x (u : State), u.Calm (f x u).1) {x : CircuitIx} (hx : (byteAt c.params 0).toNat = x.val) :
    cueCommand f c.params s = (f x s).1.answered c rest (.bare (f x s).2) := by
  unfold cueCommand circuitParam
  rw [index?_of_eq hx]
  exact h.answer (hf x s).commands _

theorem cueCommand_of_le {code : Nat} (h : s.canRun code anyLock c rest) (f : CircuitIx → State → State × Status)
    (hx : 24 ≤ (byteAt c.params 0).toNat) : cueCommand f c.params s = s.answered c rest (.bare .badParam) := by
  unfold cueCommand circuitParam
  rw [index?_of_le hx]
  exact h.answer rfl _

/-- What a cue command answers for a circuit, and for a number over 23. -/
theorem exec_cueCommand {i : Instr} {code : Nat} (h : s.canRun code anyLock c rest)
    {f : CircuitIx → State → State × Status} (hf : ∀ x (u : State), u.Calm (f x u).1)
    (hi : exec i s = .next (cueCommand f c.params s)) :
    (∀ x : CircuitIx, (byteAt c.params 0).toNat = x.val →
        exec i s = .next ((f x s).1.answered c rest (.bare (f x s).2)))
      ∧ (24 ≤ (byteAt c.params 0).toNat → exec i s = .next (s.answered c rest (.bare .badParam))) :=
  ⟨fun _ hx => hi.trans (congrArg _ (cueCommand_of_eq h hf hx)),
    fun hx => hi.trans (congrArg _ (cueCommand_of_le h f hx))⟩

theorem exec_cueStandby (h : s.canRun 0x42 anyLock c rest) :
    exec .cueStandby s = .next (cueCommand (fun x => State.standby x none) c.params s) :=
  congrArg Host.Outcome.next (h.begin (by decide) _)

theorem exec_cueGo (h : s.canRun 0x43 anyLock c rest) :
    exec .cueGo s = .next (cueCommand (fun x => State.go x none) c.params s) :=
  congrArg Host.Outcome.next (h.begin (by decide) _)

theorem exec_cueCancel (h : s.canRun 0x44 anyLock c rest) :
    exec .cueCancel s = .next (cueCommand State.cancel c.params s) :=
  congrArg Host.Outcome.next (h.begin (by decide) _)

theorem exec_cueNext (h : s.canRun 0x45 anyLock c rest) : exec .cueNext s = .next (cueNext c.params s) :=
  congrArg Host.Outcome.next (h.begin (by decide) _)

/-- The reply of CUE NEXT, field by field (12.5). -/
theorem ListResult.answer_eq (r : ListResult) (sub : Byte) (l : CueList) : r.answer sub l =
    ⟨r.status, false, [sub, byte l.cursor, byte l.entries.length,
        match r.refusing with | some x => byte x.val | none => 0xFF]
      ++ cueBytes r.cue ++ bytesOf24 r.refused ++ [byte r.gone]⟩ := by
  unfold ListResult.answer circuitByte
  cases r.refusing <;> rfl

/-- CUE NEXT answers the result of its sub-request. -/
theorem exec_cueNext_of (h : s.canRun 0x45 anyLock c rest) {f : State → State × ListResult}
    (hf : listRequest (byteAt c.params 0).toNat = f) (calm : s.Calm (f s).1) :
    exec .cueNext s = .next ((f s).1.answered c rest ⟨(f s).2.status, false,
      [byteAt c.params 0, byte (f s).1.cueList.cursor, byte (f s).1.cueList.entries.length,
        match (f s).2.refusing with | some x => byte x.val | none => 0xFF]
      ++ cueBytes (f s).2.cue ++ bytesOf24 (f s).2.refused ++ [byte (f s).2.gone]⟩) := by
  subst hf
  rw [← ListResult.answer_eq]
  exact (exec_cueNext h).trans (congrArg _ (h.answer calm.commands _))

theorem listRequest_of_unknown {sub : Nat} (h : sub < 4 ∨ 7 < sub) :
    listRequest sub = fun s => (s, .bare .badParam) := by
  unfold listRequest
  split
  case h_5 => rfl
  all_goals omega

end

/-- Settles O37. -/
theorem cueRequestsHandedOver : Obligations.CueRequestsHandedOver := by
  have taken {s : State} {p : Port} {seq : Byte} {wanted : Bool} {r r' : DeskRequest} (e : r = r')
      (h : s.firstDesk p = some (seq, wanted, r)) (effect : State → State × Status) :
      s.takeDesk p r' effect =
        State.replied p seq wanted (effect (s.setRequests (s.requests.erase (.desk p seq wanted r)))) :=
    e ▸ State.takeDesk_of_first h effect
  refine ⟨fun s p seq wanted r => State.firstDesk_eq_some, fun s p seq wanted r h => ⟨fun c e => ?_, fun c e => ?_,
    fun c e => ?_, fun e => ?_, fun e => ?_, fun e => ?_, fun e => ?_⟩, fun s i code f c rest h hi => ?_,
    fun s c rest h => ⟨fun e => ?_, fun e => ?_, fun e => ?_, fun e => ?_, fun e => ?_⟩⟩
  iterate 7 exact congrArg Host.Outcome.next (taken e h _)
  · rcases hi with ⟨rfl, rfl, rfl⟩ | ⟨rfl, rfl, rfl⟩ | ⟨rfl, rfl, rfl⟩
    · exact exec_cueCommand h (fun x u => (State.Calm.refl u).standby x none) (exec_cueStandby h)
    · exact exec_cueCommand h (fun x u => (State.Calm.refl u).go x none) (exec_cueGo h)
    · exact exec_cueCommand h (fun x u => (State.Calm.refl u).cancel x) (exec_cueCancel h)
  · exact exec_cueNext_of h (by rw [e]; rfl) (State.Calm.refl s).goNext
  · exact exec_cueNext_of h (by rw [e]; rfl) (State.Calm.refl s).standbyNext
  · exact exec_cueNext_of h (by rw [e]; rfl) (State.Calm.refl s).back
  · exact exec_cueNext_of h (by rw [e]; rfl) (State.Calm.refl s).skip
  · exact exec_cueNext_of h (listRequest_of_unknown e) (State.Calm.refl s)

end Sys2Proof.Machine
end

section
/-!
PROOFS, an answer taken (R84, R89, R90, R98, R106): O38.
-/

namespace Sys2Proof.Machine

/-! ### One circuit -/

/-- The members of a circuit with the answer of `(p, l)` marked, where the member is not lost (R84, R89). -/
def Circuit.marked (x : Circuit) (p : Port) (l : CrewLamp) : List Member :=
  x.members.map fun m => if m.port = p ∧ m.lamp = l ∧ m.lost = false then { m with answered := true } else m

section
variable {x : Circuit} {p : Port} {l : CrewLamp}

theorem Circuit.canAnswer_iff : x.canAnswer p l = true ↔
    ∃ m ∈ x.members, m.port = p ∧ m.lamp = l ∧ m.lost = false := by
  simp [Circuit.canAnswer, and_assoc]

theorem Circuit.answerMet_iff : x.answerMet = true ↔ match x.rule with
    | .all => ∀ m ∈ x.members, m.answered = true
    | .any => ∃ m ∈ x.members, m.answered = true := by
  unfold Circuit.answerMet
  cases x.rule <;> simp

theorem Circuit.answered_of_not_waiting (h : x.state = .idle ∨ x.state = .ready ∨ x.state = .go) :
    x.answered p l = x := by
  refine if_neg fun hw => ?_
  rcases h with h | h | h <;> simp [h] at hw

theorem Circuit.answered_of_not_reached (h : ¬ ∃ m ∈ x.members, m.port = p ∧ m.lamp = l ∧ m.lost = false) :
    x.answered p l = x :=
  if_neg fun hw => h (Circuit.canAnswer_iff.1 hw.2)

/-- An answer that reaches a waiting circuit marks its member, and makes it READY where the rule is then met (R90). -/
theorem Circuit.answered_of_reached (hs : x.state = .standby ∨ x.state = .late)
    (h : ∃ m ∈ x.members, m.port = p ∧ m.lamp = l ∧ m.lost = false) :
    x.answered p l = if ({ x with members := x.marked p l } : Circuit).answerMet then
        { x with members := x.marked p l, state := .ready, late := decide (x.state = .late), standbyDeadline := none }
      else { x with members := x.marked p l } :=
  if_pos ⟨hs, Circuit.canAnswer_iff.2 h⟩

/-- An answer brings a circuit to READY or leaves its state (R90). -/
theorem Circuit.answered_state : (x.answered p l).state = x.state ∨ (x.answered p l).state = .ready := by
  unfold Circuit.answered
  split
  · dsimp only
    split
    · exact .inr rfl
    · exact .inl rfl
  · exact .inl rfl

end

/-! ### All circuits at once -/

/-- One CUE_EVENT for each circuit whose state changed, in terms of the circuits as they are (R98). -/
theorem State.offerChanges_of_get {u : State} {f : CircuitIx → Circuit} (hf : ∀ c : CircuitIx, u.circuits[c] = f c)
    (before : Vector Circuit 24) : u.offerChanges before =
      (((List.finRange 24).filter fun c => before[c].state != (f c).state).map fun c =>
        NoticeBody.cueEvent c (f c).state (f c).cue (f c).late u.trunk.clock).foldl State.offer u := by
  obtain rfl : (fun c : CircuitIx => u.circuits[c]) = f := funext hf
  exact u.offerChanges_eq before

/-- The circuits after the answer of `(p, l)`. -/
def State.answeredCircuits (s : State) (p : Port) (l : CrewLamp) : Vector Circuit 24 :=
  each s.circuits fun _ x => x.answered p l

theorem State.answeredCircuits_get (s : State) (p : Port) (l : CrewLamp) (c : CircuitIx) :
    (s.answeredCircuits p l)[c] = s.circuits[c].answered p l := each_get _ _ _ _

/-- A circuit whose state an answer changes is READY (R90). -/
theorem State.answeredCircuits_ready {s : State} {p : Port} {l : CrewLamp} {c : CircuitIx}
    (h : (s.circuits[c].state != (s.answeredCircuits p l)[c].state) = true) :
    (s.answeredCircuits p l)[c].state = .ready := by
  rw [s.answeredCircuits_get] at h ⊢
  exact Circuit.answered_state.resolve_left fun same => bne_iff_ne.1 h same.symm

theorem erase_between {r : Request} {before after : List Request} (h : r ∉ before) :
    (before ++ r :: after).erase r = before ++ after := by
  rw [List.erase_append_right _ h, List.erase_cons_head]

section
variable {s : State} {p : Port} {l : CrewLamp} {before after : List Request}

/-- An answer behind a lost mark of its port waits (R84, R106). -/
theorem exec_answer_of_waiting (hs : s.requests = before ++ .answer p l :: after) (hb : Request.answer p l ∉ before)
    (waits : ∃ lost, Request.lostMark p lost ∈ before) : exec (.answer p l) s = .next s := by
  obtain ⟨lost, hlost⟩ := waits
  have notDue : ¬ answerDue p l s.requests = true := by
    rw [hs, answerDue_of hb]
    exact fun h => h lost hlost
  exact congrArg Host.Outcome.next (if_neg notDue)

/-- An answer that is due reaches every circuit, and those that change offer their CUE_EVENT (R89, R98). -/
theorem exec_answer_of_due (hs : s.requests = before ++ .answer p l :: after) (hb : Request.answer p l ∉ before)
    (due : ∀ lost, Request.lostMark p lost ∉ before) : exec (.answer p l) s = .next
      (((s.setCircuits (s.answeredCircuits p l)).setRequests (before ++ after)).offerChanges
        s.circuits) := by
  have isDue : answerDue p l s.requests = true := by
    rw [hs, answerDue_of hb]
    exact due
  have mem : Request.answer p l ∈ s.requests := by simp [hs]
  refine congrArg Host.Outcome.next ((if_pos isDue).trans ((s.take_of_mem mem _).trans ?_))
  rw [hs, erase_between hb]
  rfl

end

/-- Settles O38. -/
theorem answerTaken : Obligations.AnswerTaken := by
  refine fun s p l before after hs hb => ⟨exec_answer_of_waiting hs hb, fun due =>
    ⟨s.answeredCircuits p l, fun c => ?_, ?_⟩⟩
  · rw [s.answeredCircuits_get]
    refine ⟨Circuit.answered_of_not_waiting, Circuit.answered_of_not_reached, fun reached unmet waiting => ?_,
      fun reached met hs => ?_, fun reached met hs => ?_⟩
    · exact (Circuit.answered_of_reached waiting reached).trans (if_neg (mt Circuit.answerMet_iff.1 unmet))
    · refine (Circuit.answered_of_reached (.inl hs) reached).trans ((if_pos (Circuit.answerMet_iff.2 met)).trans ?_)
      rw [hs]
      rfl
    · refine (Circuit.answered_of_reached (.inr hs) reached).trans ((if_pos (Circuit.answerMet_iff.2 met)).trans ?_)
      rw [hs]
      rfl
  · have stored (c : CircuitIx) : ((s.setCircuits (s.answeredCircuits p l)).setRequests (before ++ after)).circuits[c]
        = (s.answeredCircuits p l)[c] := rfl
    rw [exec_answer_of_due hs hb due, State.offerChanges_of_get stored]
    refine congrArg (fun bodies => Host.Outcome.next (List.foldl State.offer _ bodies))
      (List.map_congr_left fun c hc => ?_)
    rw [State.answeredCircuits_ready (List.mem_filter.1 hc).2]
    rfl

end Sys2Proof.Machine
end

section
/-!
PROOFS, lost marks (R84, R106), and the abort of every circuit at soft reset (R107, R174): O40.
-/

namespace Sys2Proof.Machine

/-! ### Lost marks -/

/-- The requests that the news of a port leaves in front of it: with a drop, no answer of the port (R106). -/
def keptBefore (p : Port) (lost : Bool) (before : List Request) : List Request :=
  if lost then before.filter fun r => !r.answers p else before

theorem keptBefore_eq (p : Port) (lost : Bool) (before : List Request) : keptBefore p lost before =
    if lost then before.filter (fun r => match r with
      | .answer q _ => q != p
      | _ => true) else before := by
  have test : (fun r : Request => !r.answers p) = fun r => match r with
      | .answer q _ => q != p
      | _ => true := by
    funext r
    cases r <;> rfl
  rw [keptBefore, test]

/-- The circuits once the news of port `p` has reached them (R84). -/
def State.markedCircuits (s : State) (p : Port) (lost : Bool) : Vector Circuit 24 :=
  each s.circuits fun _ x => x.markLost p lost

theorem State.markedCircuits_eq (s : State) (p : Port) (lost : Bool) : s.markedCircuits p lost =
    Vector.ofFn fun c => { s.circuits[c] with
      members := s.circuits[c].members.map fun m => if m.port = p then { m with lost := lost } else m } := rfl

section
variable {s : State} {p : Port} {lost : Bool} {before after : List Request}

/-- The oldest news of a port is taken: it marks the members on the port, and leaves the requests in transit (R84). -/
theorem State.takeLostMark_of (hs : s.requests = before ++ .lostMark p lost :: after)
    (hb : ∀ b, Request.lostMark p b ∉ before) :
    s.takeLostMark p lost = (s.setCircuits (s.markedCircuits p lost)).setRequests (before ++ after) := by
  have mem : Request.lostMark p lost ∈ s.requests := by simp [hs]
  rw [State.takeLostMark, if_pos (firstLostMark_of hs hb), s.take_of_mem mem, hs, erase_between (hb lost)]
  rfl

/-- A drop taken first leaves no answer of its port in front of it (R106). -/
theorem exec_lostMarkSet (hs : s.requests = before ++ .lostMark p true :: after)
    (hb : ∀ b, Request.lostMark p b ∉ before) : exec (.lostMarkSet p) s =
      .next ((s.setRequests (before.filter (fun r => !r.answers p) ++ .lostMark p true :: after)).takeLostMark p
        true) := by
  refine congrArg Host.Outcome.next ((if_pos (firstLostMark_of hs hb)).trans ?_)
  rw [hs, dropAnswers_of hb]

theorem exec_lostMark (hs : s.requests = before ++ .lostMark p lost :: after)
    (hb : ∀ b, Request.lostMark p b ∉ before) : exec (if lost then .lostMarkSet p else .lostMarkClear p) s =
      .next ((s.setCircuits (s.markedCircuits p lost)).setRequests (keptBefore p lost before ++ after)) := by
  cases lost
  · exact congrArg Host.Outcome.next (State.takeLostMark_of hs hb)
  · rw [if_pos rfl, exec_lostMarkSet hs hb,
      State.takeLostMark_of (State.setRequests_requests _ _) fun b hm => hb b (List.mem_filter.1 hm).1]
    rfl

end

/-! ### The abort of every circuit -/

/-- A circuit as the abort leaves it (R107). -/
def Circuit.aborted (x : Circuit) (clock : Stamp) : Circuit :=
  if x.state = .idle then x else (x.record .aborted clock).enterIdle

/-- The CUE_EVENT of an aborted circuit: its cue number is the one held just before (R98). -/
def State.abortNotice (s : State) (c : CircuitIx) : NoticeBody :=
  .cueEvent c .idle s.circuits[c].cue false s.trunk.clock

/-- The circuits once those of a list are aborted. -/
def State.abortedCircuits (s : State) (cs : List CircuitIx) : Vector Circuit 24 :=
  each s.circuits fun c x => if c ∈ cs then x.aborted s.trunk.clock else x

/-- A notice and the circuits do not meet. -/
theorem State.offer_setCircuits (s : State) (body : NoticeBody) (v : Vector Circuit 24) :
    (s.offer body).setCircuits v = (s.setCircuits v).offer body := by
  unfold State.offer
  dsimp only [State.setCircuits_management]
  split <;> rfl

/-- The notices that the abort of a list of circuits offers. -/
def State.abortNotices (s : State) (cs : List CircuitIx) : List NoticeBody :=
  (cs.filter fun c => s.circuits[c].state != .idle).map s.abortNotice

/-- The abort of one circuit (R107). -/
theorem State.abortCircuit_eq (s : State) (c : CircuitIx) : s.abortCircuit c =
    (s.abortNotices [c]).foldl State.offer (s.setCircuit c (s.circuits[c].aborted s.trunk.clock)) := by
  unfold State.abortNotices
  by_cases hi : s.circuits[c].state = .idle
  · have self : s.setCircuit c s.circuits[c] = s := congrArg s.setCircuits (put_self s.circuits c)
    have same : s.circuits[c].aborted s.trunk.clock = s.circuits[c] := if_pos hi
    rw [List.filter_cons_of_neg (by simpa using hi), same, self]
    exact if_pos hi
  · have left : s.circuits[c].aborted s.trunk.clock =
        (s.circuits[c].record .aborted s.trunk.clock).enterIdle := if_neg hi
    rw [List.filter_cons_of_pos (by simpa using hi), left]
    exact (if_neg hi).trans (s.offerCueEvent_setCircuit c _ _)

section
variable (s : State) (c : CircuitIx)

theorem State.abortCircuit_trunk : (s.abortCircuit c).trunk = s.trunk := by
  rw [State.abortCircuit_eq, State.foldl_offer_trunk, State.setCircuit_trunk]

theorem State.abortCircuit_get (d : CircuitIx) : (s.abortCircuit c).circuits[d] =
    if d = c then s.circuits[c].aborted s.trunk.clock else s.circuits[d] := by
  rw [State.abortCircuit_eq, State.foldl_offer_circuits]
  exact s.setCircuit_get c _ d

theorem State.abortCircuit_setCircuits (v : Vector Circuit 24) :
    (s.abortCircuit c).setCircuits v = (s.abortNotices [c]).foldl State.offer (s.setCircuits v) := by
  rw [State.abortCircuit_eq]
  generalize s.abortNotices [c] = bodies
  have commutes (t : State) : (bodies.foldl State.offer t).setCircuits v
      = bodies.foldl State.offer (t.setCircuits v) := by
    induction bodies generalizing t with
    | nil => rfl
    | cons b rest ih => rw [List.foldl_cons, ih, State.offer_setCircuits, List.foldl_cons]
  rw [commutes]
  rfl

end

/-- Circuits are aborted one after another; the notices come behind each other (R98, R107). -/
theorem State.foldl_abortCircuit (cs : List CircuitIx) (h : cs.Nodup) (s : State) :
    cs.foldl State.abortCircuit s = (s.abortNotices cs).foldl State.offer (s.setCircuits (s.abortedCircuits cs)) := by
  induction cs generalizing s with
  | nil =>
    have none : s.abortedCircuits [] = s.circuits := table_ext fun c => each_get _ _ _ _
    rw [none]
    rfl
  | cons c rest ih =>
    obtain ⟨hc, hr⟩ := List.nodup_cons.1 h
    have other (d : CircuitIx) (hd : d ∈ rest) : (s.abortCircuit c).circuits[d] = s.circuits[d] :=
      (s.abortCircuit_get c d).trans (if_neg fun e : d = c => hc (e ▸ hd))
    have circuits : (s.abortCircuit c).abortedCircuits rest = s.abortedCircuits (c :: rest) := table_ext fun d => by
      have hd := s.abortCircuit_get c d
      simp only [State.abortedCircuits, Fin.getElem_fin, each_get, List.mem_cons, State.abortCircuit_trunk] at hd ⊢
      rw [hd]
      by_cases e : d = c
      · subst e
        simp [hc]
      · simp [e]
    have notices : (s.abortCircuit c).abortNotices rest = s.abortNotices rest := by
      unfold State.abortNotices
      rw [List.filter_congr fun d hd => by rw [other d hd]]
      refine List.map_congr_left fun d hd => ?_
      rw [State.abortNotice, other d (List.mem_filter.1 hd).1, State.abortCircuit_trunk]
      rfl
    have appended : s.abortNotices (c :: rest) = s.abortNotices [c] ++ s.abortNotices rest := by
      rw [State.abortNotices, ← List.singleton_append, List.filter_append, List.map_append]
      rfl
    rw [List.foldl_cons, ih hr, circuits, notices, State.abortCircuit_setCircuits, appended, List.foldl_append]

/-- The abort of every circuit (R107). -/
theorem State.abortCircuits_eq (s : State) : (List.finRange 24).foldl State.abortCircuit s =
    (s.abortNotices (List.finRange 24)).foldl State.offer
      (s.setCircuits (each s.circuits fun _ x => x.aborted s.trunk.clock)) := by
  have every : s.abortedCircuits (List.finRange 24) = each s.circuits fun _ x => x.aborted s.trunk.clock := by
    simp only [State.abortedCircuits, List.mem_finRange, if_true]
  rw [State.foldl_abortCircuit _ (List.nodup_finRange 24), every]

/-- The state in which every circuit is aborted, and the request taken. -/
def State.afterAbort (s : State) : State :=
  (s.abortNotices (List.finRange 24)).foldl State.offer
    ((s.setCircuits (each s.circuits fun _ x => x.aborted s.trunk.clock)).setRequests (s.requests.erase .circuitAbort))

theorem State.afterAbort_eq (s : State) : (List.finRange 24).foldl State.abortCircuit
    (s.setRequests (s.requests.erase .circuitAbort)) = s.afterAbort := State.abortCircuits_eq _

section
variable {s : State}

theorem exec_circuitAbort_eq (h : Request.circuitAbort ∈ s.requests) :
    exec .circuitAbort s = .next s.afterAbort.resetTaken := by
  rw [exec_circuitAbort h, State.afterAbort_eq]

/-- While another request of the soft reset is in transit no reply is placed (R174). -/
theorem State.afterAbort_of_left (left : ∃ r ∈ s.requests.erase .circuitAbort, r.ofReset = true) :
    s.afterAbort.resetTaken = s.afterAbort := by
  refine State.resetTaken_of_left (List.any_eq_true.1 ?_)
  rw [← State.afterAbort_eq, State.abortCircuits_ofReset]
  exact List.any_eq_true.2 left

/-- The last request of the soft reset places its reply (R160, R174). -/
theorem State.afterAbort_of_last {n : Nat} {c : Command} {rest : List Command}
    (last : s.lastOfReset .circuitAbort n c rest) :
    s.afterAbort.resetTaken = s.afterAbort.answered c rest ⟨.done, false, [byte n]⟩ := by
  have noneLeft := any_ofReset_eq_false last.none_left
  obtain ⟨-, hc, he, -⟩ := last
  have calm : s.Calm s.afterAbort := by
    rw [← State.afterAbort_eq]
    exact ((State.Calm.refl s).setRequests _).abortCircuits _
  refine State.resetTaken_of_last ?_ (calm.execution.trans he) (calm.commands.trans hc)
  rw [← State.afterAbort_eq, State.abortCircuits_ofReset]
  exact noneLeft

end

/-- Settles O40. -/
theorem lostMarksAndAborts : Obligations.LostMarksAndAborts := by
  refine fun s => ⟨fun p lost before after hs hb => ?_, fun abort => ⟨(s.setCircuits
    (each s.circuits fun _ x => x.aborted s.trunk.clock)).setRequests (s.requests.erase .circuitAbort), rfl, rfl,
    fun left => ?_, fun n c rest last => ?_⟩⟩
  · have taken := exec_lostMark hs hb
    rw [keptBefore_eq, State.markedCircuits_eq] at taken
    exact taken
  · rw [exec_circuitAbort_eq abort, State.afterAbort_of_left left]
    rfl
  · rw [exec_circuitAbort_eq abort, State.afterAbort_of_last last]
    rfl

end Sys2Proof.Machine
end

section
/-!
PROOFS, GO NEXT and the auto-standby that follows it (R92, R93, R114 to R116, R120): O41.
-/

namespace Sys2Proof.Machine

/-! ### The circuits of an entry (R114) -/

theorem CueEntry.mem_circuitList {e : CueEntry} {c : CircuitIx} :
    c ∈ e.circuitList ↔ e.circuits.getLsbD c.val = true := by
  simp [CueEntry.circuitList]

theorem CueEntry.circuitList_nodup (e : CueEntry) : e.circuitList.Nodup := (List.nodup_finRange 24).filter _

/-- In a rising list, the element that satisfies the test and has none such below it is found first. -/
theorem find?_of_lowest {cs : List CircuitIx} (sorted : cs.Pairwise (· < ·)) {test : CircuitIx → Bool} {c : CircuitIx}
    (hc : c ∈ cs) (ht : test c = true) (lowest : ∀ b ∈ cs, b < c → test b = false) : cs.find? test = some c := by
  obtain ⟨before, after, rfl⟩ := List.append_of_mem hc
  refine List.find?_eq_some_iff_append.2 ⟨ht, before, after, rfl, fun b hb => ?_⟩
  have below := (List.pairwise_append.1 sorted).2.2 b hb c List.mem_cons_self
  rw [lowest b (List.mem_append_left _ hb) below]
  rfl

section
variable {s : State} {e : CueEntry}

/-- The lowest circuit whose GO check refuses gives the reason (R114). -/
theorem State.goRefusal_of_lowest {c : CircuitIx} (hc : e.circuits.getLsbD c.val = true)
    (refuses : s.circuits[c].goCheck ≠ .done)
    (lowest : ∀ b : CircuitIx, b < c → e.circuits.getLsbD b.val = true → s.circuits[b].goCheck = .done) :
    s.goRefusal e.circuitList = some (c, s.circuits[c].goCheck) := by
  have found := find?_of_lowest (cs := e.circuitList) (test := fun c => s.circuits[c].goCheck ≠ .done)
    ((List.pairwise_lt_finRange 24).filter _) (CueEntry.mem_circuitList.2 hc) (decide_eq_true refuses)
    fun b hb hlt => decide_eq_false (not_not.2 (lowest b hlt (CueEntry.mem_circuitList.1 hb)))
  rw [State.goRefusal, found]
  rfl

theorem State.goRefusal_of_permitted (permitted : ∀ c ∈ e.circuitList, s.circuits[c].goCheck = .done) :
    s.goRefusal e.circuitList = none := by
  rw [State.goRefusal, Option.map_eq_none_iff, List.find?_eq_none]
  intro c hc
  rw [permitted c hc]
  decide

/-! ### The two refusals of GO NEXT -/

theorem State.goNext_of_end (h : s.cueList.atCursor = none) : s.goNext = (s, .bare .listEnd) := by
  rw [State.goNext, h]

theorem State.goNext_of_refused {c : CircuitIx} {why : Status} (he : s.cueList.atCursor = some e)
    (h : s.goRefusal e.circuitList = some (c, why)) : s.goNext = (s, ⟨why, some c, none, 0, 0⟩) := by
  rw [State.goNext, he]
  dsimp only
  rw [h]

end

/-! ### Auto-standby (R116) -/

/-- The entry at a place of the cue list, where it has auto-standby. -/
def CueList.autoAt (l : CueList) (i : Nat) : Option CueEntry :=
  match l.entries[i]? with
  | some n => if n.auto then some n else none
  | none => none

/-- The auto-standby entry, where there is one, has the circuit. -/
def warns (next : Option CueEntry) (c : CircuitIx) : Bool :=
  match next with
  | some n => n.circuits.getLsbD c.val
  | none => false

/-- The cue number of the auto-standby entry, where there is one. -/
def warningCue (next : Option CueEntry) : CueNumber := match next with | some n => n.cue | none => 0

/-- The circuits of the auto-standby entry, in circuit order. -/
def warnedList (next : Option CueEntry) : List CircuitIx := (List.finRange 24).filter (warns next)

theorem mem_warnedList {next : Option CueEntry} {c : CircuitIx} : c ∈ warnedList next ↔ warns next c = true := by
  simp [warnedList]

/-- Auto-standby gives STANDBY to the circuits of the entry at the cursor, or to none. -/
theorem State.autoStandby_eq (s : State) : s.autoStandby =
    State.standbyAll (warningCue (s.cueList.autoAt s.cueList.cursor))
      (warnedList (s.cueList.autoAt s.cueList.cursor)) s := by
  have nobody : warnedList none = [] := by simp [warnedList, warns]
  cases he : s.cueList.atCursor with
  | none =>
    have none : s.cueList.autoAt s.cueList.cursor = none := by
      rw [CueList.autoAt, ← CueList.atCursor, he]
    rw [State.autoStandby, he, none, nobody]
    rfl
  | some n =>
    have here : s.cueList.autoAt s.cueList.cursor = if n.auto then some n else none := by
      rw [CueList.autoAt, ← CueList.atCursor, he]
    rw [State.autoStandby, he, here]
    dsimp only
    by_cases auto : n.auto = true
    · rw [if_pos auto, if_pos auto]
      rfl
    · rw [if_neg auto, if_neg auto, nobody]
      rfl

/-! ### The entry gone (R115) -/

section
variable (s : State) (e : CueEntry)

/-- A circuit after GO was given to the circuits of an entry. -/
def State.wentCircuit (c : CircuitIx) : Circuit :=
  if e.circuits.getLsbD c.val then s.circuits[c].enterGo (some e.cue) s.trunk.clock else s.circuits[c]

/-- The state in which every circuit of the entry has gone, the last-cue record is written and the cursor has
advanced (R115 steps 1 to 3). -/
def State.entryGone : State :=
  (s.setCircuits (Vector.ofFn (s.wentCircuit e))).setCueList { s.cueList with
    cursor := s.cueList.cursor + 1
    lastCue := some (e.lastCue s.trunk.clock) }

/-- A circuit after the auto-standby (R116). -/
def State.finalCircuit (c : CircuitIx) : Circuit :=
  let next := s.cueList.autoAt (s.cueList.cursor + 1)
  if warns next c then (s.wentCircuit e c).warned (some (warningCue next)) s.trunk.clock else s.wentCircuit e c

/-- The circuits that post a CUE_OPEN for the auto-standby (R99, R116). -/
def State.openedList : List CircuitIx :=
  (List.finRange 24).filter fun c =>
    warns (s.cueList.autoAt (s.cueList.cursor + 1)) c && (s.wentCircuit e c).state == .idle
      && !(s.wentCircuit e c).members.isEmpty

/-- The state at the end of GO NEXT but for its notices. -/
def State.nextGone : State :=
  ((s.entryGone e).setCircuits (Vector.ofFn (s.finalCircuit e))).postAll (s.openedList e)

/-- CUE_OPEN events of the auto-standby fill the key event queue up to 32, and each that finds it full is reported. -/
theorem State.nextGone_eq : s.nextGone e =
    (((s.entryGone e).setCircuits (Vector.ofFn (s.finalCircuit e))).setWalker { s.walker with
      queue := s.walker.queue ++ ((s.openedList e).take (32 - s.walker.queue.length)).map .cueOpen }).setRequests
        (s.requests ++ ((s.openedList e).drop (32 - s.walker.queue.length)).map fun c =>
          .fault .queueFull (.circuit c)) := by
  rw [State.nextGone, State.postAll_eq]
  simp only [State.entryGone, State.setCircuits_walker, State.setCircuits_requests, State.setCueList_walker,
    State.setCueList_requests]

/-- GO NEXT but for its notices changes the circuits, the cue list, the key event queue and the requests alone. -/
theorem State.nextGone_others : (s.nextGone e).ports = s.ports ∧ (s.nextGone e).trunk = s.trunk
    ∧ (s.nextGone e).group = s.group ∧ (s.nextGone e).directory = s.directory ∧ (s.nextGone e).xps = s.xps
    ∧ (s.nextGone e).mixer = s.mixer ∧ (s.nextGone e).management = s.management
    ∧ (s.nextGone e).faultLog = s.faultLog ∧ (s.nextGone e).pending = s.pending := by
  rw [State.nextGone_eq]
  simp [State.entryGone]

theorem State.nextGone_circuits : (s.nextGone e).circuits = Vector.ofFn (s.finalCircuit e) := by
  rw [State.nextGone_eq]
  simp

theorem State.nextGone_cueList : (s.nextGone e).cueList = { s.cueList with
    cursor := s.cueList.cursor + 1
    lastCue := some (e.lastCue s.trunk.clock) } := by
  rw [State.nextGone_eq]
  simp [State.entryGone]

theorem State.nextGone_walker : (s.nextGone e).walker = { s.walker with
    queue := s.walker.queue ++ ((s.openedList e).take (32 - s.walker.queue.length)).map .cueOpen } := by
  rw [State.nextGone_eq]
  simp

theorem State.nextGone_requests : (s.nextGone e).requests =
    s.requests ++ ((s.openedList e).drop (32 - s.walker.queue.length)).map fun c =>
      .fault .queueFull (.circuit c) := by
  rw [State.nextGone_eq]
  simp

theorem State.entryGone_get (c : CircuitIx) : (s.entryGone e).circuits[c] = s.wentCircuit e c :=
  Vector.getElem_ofFn _

/-- GO to every circuit of an entry whose checks permit it (R115). -/
theorem State.goAll_entry (permitted : ∀ c ∈ e.circuitList, s.circuits[c].goCheck = .done) :
    s.goAll e.cue e.circuitList = s.setCircuits (Vector.ofFn (s.wentCircuit e)) := by
  rw [State.goAll_eq s e.cue e.circuitList e.circuitList_nodup permitted]
  simp only [CueEntry.mem_circuitList]
  rfl

/-- The auto-standby after the entry has gone (R116). -/
theorem State.entryGone_autoStandby : (s.entryGone e).autoStandby.1 = s.nextGone e
    ∧ ∀ c : CircuitIx, (s.entryGone e).autoStandby.2.getLsbD c.val =
      (warns (s.cueList.autoAt (s.cueList.cursor + 1)) c && (s.wentCircuit e c).refusesStandby) := by
  have next : (s.entryGone e).cueList.autoAt (s.entryGone e).cueList.cursor
      = s.cueList.autoAt (s.cueList.cursor + 1) := by
    rw [State.entryGone, State.setCueList_cueList]
    rfl
  obtain ⟨given, refused⟩ := (s.entryGone e).standbyAll_eq (warningCue (s.cueList.autoAt (s.cueList.cursor + 1)))
    (warnedList (s.cueList.autoAt (s.cueList.cursor + 1))) ((List.nodup_finRange 24).filter _)
  rw [State.autoStandby_eq, next]
  refine ⟨given.trans ?_, fun c => (refused c).trans ?_⟩
  · have circuits : warnedAll (warnedList (s.cueList.autoAt (s.cueList.cursor + 1)))
        (warningCue (s.cueList.autoAt (s.cueList.cursor + 1))) (s.entryGone e).clock (s.entryGone e).circuits
        = Vector.ofFn (s.finalCircuit e) := table_ext fun c => by
      rw [warnedAll, Fin.getElem_fin, each_get, Fin.getElem_fin, Vector.getElem_ofFn]
      have went := s.entryGone_get e c
      rw [Fin.getElem_fin] at went
      simp only [went, mem_warnedList]
      rfl
    have opened : ((warnedList (s.cueList.autoAt (s.cueList.cursor + 1))).filter fun c =>
        (s.entryGone e).circuits[c].opens) = s.openedList e := by
      rw [warnedList, List.filter_filter]
      refine List.filter_congr fun c _ => ?_
      rw [s.entryGone_get e c, Circuit.opens, Bool.and_comm, Bool.and_assoc]
    rw [circuits, opened]
    rfl
  · rw [s.entryGone_get e c]
    simp only [mem_warnedList, Bool.decide_eq_true]

variable {s e}

/-- GO NEXT where every GO check permits (R114 to R116). -/
theorem State.goNext_of_permitted (he : s.cueList.atCursor = some e)
    (permitted : ∀ c ∈ e.circuitList, s.circuits[c].goCheck = .done) : s.goNext =
      ((s.nextGone e).offerChanges s.circuits,
        ⟨.done, none, some e.cue, (s.entryGone e).autoStandby.2, e.circuitList.length⟩) := by
  rw [State.goNext, he]
  dsimp only
  rw [State.goRefusal_of_permitted permitted]
  dsimp only
  rw [s.goAll_entry e permitted, ← (s.entryGone_autoStandby e).1]
  rfl

end

/-- Settles O41. -/
theorem goNextRule : Obligations.GoNextRule := by
  refine ⟨fun x cue clock => ⟨rfl, x.enterStandby_eq cue clock, x.enterGo_eq cue clock⟩,
    fun s => ⟨State.goNext_of_end, fun e he => ⟨fun c hc refuses lowest => ?_, fun permitted => ?_⟩⟩⟩
  · exact State.goNext_of_refused he (State.goRefusal_of_lowest hc refuses lowest)
  · have gone := State.goNext_of_permitted he fun c hc => permitted c (CueEntry.mem_circuitList.1 hc)
    have final (c : CircuitIx) : (s.nextGone e).circuits[c] = s.finalCircuit e c := by
      rw [State.nextGone_circuits]
      exact Vector.getElem_ofFn _
    obtain ⟨ports, trunk, group, directory, xps, mixer, management, faultLog, pending⟩ := s.nextGone_others e
    rw [State.offerChanges_of_get final, trunk] at gone
    refine ⟨s.nextGone e, s.nextGone_circuits e, s.nextGone_cueList e, s.nextGone_walker e, s.nextGone_requests e,
      ports, trunk, group, directory, xps, mixer, management, faultLog, pending, congrArg Prod.fst gone, ?_⟩
    rw [gone]
    exact ⟨rfl, rfl, rfl, rfl, fun c => ((s.entryGone_autoStandby e).2 c).trans (Bool.and_assoc _ _ _).symm⟩

end Sys2Proof.Machine
end

section
/-!
PROOFS, the downlink frames of a frame start (R102, R103, R127, R137 to R139): O7.
-/

namespace Sys2Proof.Machine

/-! ### Bytes of a frame (R191, 12.2) -/

theorem withSumCheck_sum (bytes : List Byte) : (withSumCheck bytes).sum = 0 := by
  simp [withSumCheck, sumCheck]

/-- Codes side by side weigh by the powers of their fields' size. -/
theorem packed_finRange (bits : Nat) {n : Nat} (f : Fin n → Nat) : packed bits ((List.finRange n).map f) =
    ((List.finRange n).map fun i => f i * (2 ^ bits) ^ i.val).sum := by
  induction n with
  | zero => rfl
  | succ n ih =>
    have later : (List.finRange n).map ((fun i : Fin (n + 1) => f i * (2 ^ bits) ^ i.val) ∘ Fin.succ) =
        (List.finRange n).map fun i => 2 ^ bits * (f i.succ * (2 ^ bits) ^ i.val) :=
      List.map_congr_left fun i _ => by
        rw [Function.comp_apply, Fin.val_succ, pow_succ]
        ring
    rw [List.finRange_succ, List.map_cons, List.map_cons, List.map_map, List.map_map, later, List.sum_cons,
      List.sum_map_mul_left, packed, ← ih]
    simp [Function.comp_def]

/-- The message byte of a downlink, and its two flags. -/
def messageFields : Option (Byte × Bool) → Byte × Nat
  | some (b, start) => (b, 2 + bit start)
  | none => (0, 0)

/-- The nine bytes of a downlink before its check. -/
def Downlink.bytes (d : Downlink) : List Byte :=
  bytesOf16 d.sample
    ++ [byte (packed 2 d.keyLamps), byte (d.callLamp + 8 * d.cueLampA + 32 * d.cueLampB),
      (messageFields d.message).1, byte ((messageFields d.message).2 + 16 * d.group.val)]
    ++ bytesOf24 (BitVec.ofNat 24 (packed 3 d.deskLamps))

theorem Downlink.write_eq (d : Downlink) : d.write = d.bytes ++ [sumCheck d.bytes] := rfl

theorem Downlink.write_length (d : Downlink) : d.write.length = 10 := by
  rw [Downlink.write_eq]
  rfl

theorem Downlink.write_sum (d : Downlink) : d.write.sum = 0 := withSumCheck_sum _

/-! ### Crew lamps (R102) -/

/-- A circuit in this state has the lamp as a member. -/
def State.shows (s : State) (p : Port) (l : CrewLamp) (state : CircuitState) : Bool :=
  (List.finRange 24).any fun c =>
    s.circuits[c].state == state && s.circuits[c].members.any fun m => m.port == p && m.lamp == l

theorem State.shows_iff {s : State} {p : Port} {l : CrewLamp} {state : CircuitState} :
    s.shows p l state = true ↔ ∃ c : CircuitIx, s.circuits[c].hasMember p l = true ∧ s.circuits[c].state = state := by
  simp [State.shows, Circuit.hasMember, and_comm]

/-- The circuits that have a lamp as a member give it a value exactly where one of them is in a state of that value. -/
theorem State.crewValues_contains {s : State} {p : Port} {l : CrewLamp} {value : Nat} :
    (((s.circuits.toList.filter fun c => c.hasMember p l).map fun c => c.state.crewLamp).contains value) = true ↔
      ∃ c : CircuitIx, s.circuits[c].hasMember p l = true ∧ s.circuits[c].state.crewLamp = value := by
  simp only [List.contains_iff_mem, List.mem_map, List.mem_filter, Vector.mem_toList_iff, Vector.mem_iff_getElem]
  constructor
  · rintro ⟨x, ⟨⟨i, hi, rfl⟩, hm⟩, hv⟩
    exact ⟨⟨i, hi⟩, hm, hv⟩
  · rintro ⟨c, hm, hv⟩
    exact ⟨_, ⟨⟨c.val, c.isLt, rfl⟩, hm⟩, hv⟩

theorem CircuitState.crewLamp_eq_three {x : CircuitState} : x.crewLamp = 3 ↔ x = .go := by
  cases x <;> simp [CircuitState.crewLamp]

theorem CircuitState.crewLamp_eq_one {x : CircuitState} : x.crewLamp = 1 ↔ x = .standby ∨ x = .late := by
  cases x <;> simp [CircuitState.crewLamp]

theorem CircuitState.crewLamp_eq_two {x : CircuitState} : x.crewLamp = 2 ↔ x = .ready := by
  cases x <;> simp [CircuitState.crewLamp]

/-- A crew lamp by the precedence GO, STANDBY, READY, OFF, LATE showing as STANDBY (R102). -/
theorem State.crewLamp_eq (s : State) (p : Port) (l : CrewLamp) : s.crewLamp p l =
    if s.shows p l .go then 3 else if s.shows p l .standby || s.shows p l .late then 1
    else if s.shows p l .ready then 2 else 0 := by
  unfold State.crewLamp
  simp only [State.crewValues_contains, CircuitState.crewLamp_eq_three, CircuitState.crewLamp_eq_one,
    CircuitState.crewLamp_eq_two, Bool.or_eq_true, State.shows_iff, and_or_left, exists_or]

/-! ### The downlink of a frame start -/

section
variable (s : State)

/-- The mix takes the sample of a port. -/
theorem State.mixed_port (p : Port) : s.tickClock.mix.ports[p] = s.ports[p].takeSample := by
  simp [State.mix_ports]

theorem State.mixed_circuits : s.tickClock.mix.circuits = each s.circuits fun _ c => c.tick (s.trunk.clock + 1) := by
  simp [State.tickClock]

theorem State.mixed_shows (p : Port) (l : CrewLamp) (state : CircuitState) :
    s.tickClock.mix.shows p l state = s.shows p l state := by
  simp only [State.shows, State.mixed_circuits, Fin.getElem_fin, each_get, Circuit.tick]

end

theorem StationPort.takeSample_kind (x : StationPort) : x.takeSample.kind = x.kind := by
  rw [StationPort.takeSample_eq]

theorem StationPort.takeSample_link (x : StationPort) : x.takeSample.link = x.link := by
  rw [StationPort.takeSample_eq]

theorem StationPort.takeSample_replies (x : StationPort) : x.takeSample.replies = x.replies := by
  rw [StationPort.takeSample_eq]

/-- The downlink tells nothing of the samples taken and the deadlines marked in its frame. -/
theorem State.mixed_downlink (s : State) (m : MixInput) (p : Port) :
    s.tickClock.mix.downlink m p = s.downlink m p := by
  have port := s.mixed_port p
  have lamp (c : CircuitIx) : s.tickClock.mix.deskLamp c = s.deskLamp c := by
    rw [State.deskLamp, State.mixed_circuits, Fin.getElem_fin, each_get]
    rfl
  unfold State.downlink State.isUp State.callLamp State.deskField
  simp only [port, lamp, State.crewLamp_eq, State.mixed_shows, StationPort.takeSample_kind, StationPort.takeSample_link,
    StationPort.takeSample_replies, State.mix_group, State.tickClock_group, State.entry, State.mix_walker,
    State.tickClock_walker]

/-- A port at the end of a frame start: its downlink is sent, and the byte of its reply (R127, R137, R138). -/
theorem State.frameStart_downlink (s : State) (p : Port) :
    s.frameStart.ports[p].txFrame =
        (if s.ports[p].kind = .unused then none else some (s.downlink s.frameInput p).write)
      ∧ s.frameStart.ports[p].replies =
        if s.ports[p].link = .up then afterByte s.ports[p].replies else s.ports[p].replies := by
  have sent : s.frameStart.ports[p] = s.tickClock.mix.sendDownlink s.frameInput p := by
    simp [State.frameStart, State.sendDownlinks, State.frameInput]
  rw [sent, State.sendDownlink, State.mixed_downlink, s.mixed_port p, StationPort.takeSample_kind,
    StationPort.takeSample_link, StationPort.takeSample_replies]
  exact ⟨rfl, rfl⟩

/-- The downlink of a port that is not UP (R138). -/
theorem State.downlink_of_not_up {s : State} {m : MixInput} {p : Port} (h : s.ports[p].link ≠ .up) :
    s.downlink m p = ⟨0, [], 0, 0, 0, none, s.group, []⟩ :=
  if_neg fun hu => h (State.isUp_iff.1 hu)

/-- The downlink of a port that is UP (R138, R139). -/
theorem State.downlink_of_up {s : State} {m : MixInput} {p : Port} (h : s.ports[p].link = .up) : s.downlink m p =
    ⟨m.headset p, (List.finRange 4).map fun k => (s.entry p (k.castLE (by omega))).lamp.code, s.callLamp p,
      s.crewLamp p .a, s.crewLamp p .b, nextByte s.ports[p].replies, s.group, s.deskField p⟩ :=
  if_pos (State.isUp_iff.2 h)

/-! ### The fields of a downlink -/

theorem packed_keyLamps (f : Fin 4 → Nat) :
    packed 2 ((List.finRange 4).map f) = f 0 + 4 * f 1 + 16 * f 2 + 64 * f 3 := by
  rw [show List.finRange 4 = [0, 1, 2, 3] from rfl]
  simp only [List.map_cons, List.map_nil, packed]
  ring

/-- The start flag and the flag of a message byte stand in the two lowest bits (R137). -/
theorem message_flags : ∀ (start : Bool) (g : Fin 3),
    (byte (2 + bit start + 16 * g.val)).getLsbD 0 = start ∧ (byte (2 + bit start + 16 * g.val)).getLsbD 1 = true := by
  decide

/-- The message byte of a reply buffer (R137). -/
theorem messageFields_nextByte (replies : List (List Byte)) : messageFields (nextByte replies) =
    match replies with
    | (b :: bs) :: _ => (b, if bs.length = 3 then 3 else 2)
    | _ => (0, 0) := by
  rcases replies with - | ⟨- | ⟨b, bs⟩, rest⟩
  · rfl
  · rfl
  · by_cases h : bs.length = 3 <;> simp [nextByte, messageFields, bit, h]

/-- A reply leaves the buffer after its last byte (R137). -/
theorem afterByte_cons (b : Byte) (bs : List Byte) (rest : List (List Byte)) :
    afterByte ((b :: bs) :: rest) = if bs = [] then rest else bs :: rest := by
  cases bs <;> simp [afterByte]

section
variable {s : State} {m : MixInput} {p : Port}

/-- The frame of a port that is not UP (R138). -/
theorem State.write_of_not_up (h : s.ports[p].link ≠ .up) :
    ∃ check, (s.downlink m p).write = [0, 0, 0, 0, 0, byte (16 * s.group.val), 0, 0, 0, check] := by
  rw [State.downlink_of_not_up h, Downlink.write_eq]
  refine ⟨sumCheck (Downlink.bytes ⟨0, [], 0, 0, 0, none, s.group, []⟩), ?_⟩
  have silent : Downlink.bytes ⟨0, [], 0, 0, 0, none, s.group, []⟩ =
      [0, 0, 0, 0, 0, byte (16 * s.group.val), 0, 0, 0] := by
    simp [Downlink.bytes, messageFields, packed, bytesOf16, bytesOf24, byte]
  rw [silent]
  rfl

/-- The reply's next byte, with its flags (R137). -/
theorem State.write_of_reply (h : s.ports[p].link = .up) {b : Byte} {bs : List Byte} {rest : List (List Byte)}
    (hr : s.ports[p].replies = (b :: bs) :: rest) :
    byteAt (s.downlink m p).write 4 = b ∧ (byteAt (s.downlink m p).write 5).getLsbD 0 = (bs.length == 3)
      ∧ (byteAt (s.downlink m p).write 5).getLsbD 1 = true := by
  rw [State.downlink_of_up h, hr]
  exact ⟨rfl, message_flags (bs.length == 3) s.group⟩

/-- The lamps of the eight circuits of the group, OFF where the port is not a DESK (R103, R139). -/
theorem State.packed_deskField : packed 3 (s.deskField p) = ((List.finRange 8).map fun i =>
    (if s.ports[p].kind = .desk then s.deskLamp (deskCircuit s.group i) else 0) * 8 ^ i.val).sum :=
  packed_finRange 3 _

/-- The frame of a port that is UP (R102, R103, R138, R139). -/
theorem State.write_of_up (h : s.ports[p].link = .up) : ∃ check, (s.downlink m p).write =
    bytesOf16 (m.headset p)
      ++ [byte ((s.entry p 0).lamp.code + 4 * (s.entry p 1).lamp.code + 16 * (s.entry p 2).lamp.code
            + 64 * (s.entry p 3).lamp.code),
          byte (s.callLamp p + 8 * s.crewLamp p .a + 32 * s.crewLamp p .b),
          (messageFields (nextByte s.ports[p].replies)).1,
          byte ((messageFields (nextByte s.ports[p].replies)).2 + 16 * s.group.val)]
      ++ bytesOf24 (BitVec.ofNat 24 (packed 3 (s.deskField p))) ++ [check] := by
  refine ⟨sumCheck (s.downlink m p).bytes, ?_⟩
  rw [Downlink.write_eq, State.downlink_of_up h]
  unfold Downlink.bytes
  rw [packed_keyLamps]
  rfl

end

/-- Settles O7. -/
theorem downlinkFrames : Obligations.DownlinkFrames := by
  refine fun s due => ⟨s.frameStart, s.frameInput, exec_frameStart_of_due due, s.frameInput_mixes, fun p => ?_⟩
  obtain ⟨frame, replies⟩ := s.frameStart_downlink p
  refine ⟨fun unused => frame.trans (if_pos unused), fun used => ?_, fun used notUp => ?_,
    fun b bs rest used up hr => ⟨⟨_, frame.trans (if_neg used), State.write_of_reply up hr⟩, ?_⟩, fun used up => ?_⟩
  · exact ⟨_, frame.trans (if_neg used), Downlink.write_length _, Downlink.write_sum _⟩
  · obtain ⟨check, silent⟩ := s.write_of_not_up (m := s.frameInput) notUp
    exact ⟨check, by rw [frame, if_neg used, silent], replies.trans (if_neg notUp)⟩
  · rw [replies, if_pos up, hr, afterByte_cons]
  · obtain ⟨check, sent⟩ := s.write_of_up (m := s.frameInput) up
    rw [messageFields_nextByte, State.packed_deskField, State.crewLamp_eq, State.crewLamp_eq] at sent
    exact ⟨check, by rw [frame, if_neg used]; exact congrArg some sent⟩

end Sys2Proof.Machine
end

section
/-!
PROOFS, the commands of the cue list and its cursor (R110 to R112, R119, R122): O43, O44 and O45.
-/

namespace Sys2Proof.Machine

/-! ### Commands that the show lock refuses (R177) -/

/-- A command that may run, and that each of these states of the lock refuses, is answered LOCKED. -/
theorem State.canRun.refused {s : State} {code : Nat} {locks : List LockState} {c : Command} {rest : List Command}
    (h : s.canRun code locks c rest) (hl : ∀ l ∈ locks, l.refuses (BitVec.ofNat 8 code) = true)
    (effect : List Byte → State → State) : s.begin code effect = s.answered c rest ⟨.locked, false, []⟩ := by
  refine .trans ?_ (h.answer rfl _)
  obtain ⟨hc, hcode, hi, he, hr, hlock⟩ := h
  have code_eq : c.code = BitVec.ofNat 8 code := by
    rw [← hcode, BitVec.ofNat_toNat, BitVec.setWidth_eq]
  have refuses : s.management.lock.refuses c.code = true := code_eq ▸ hl _ hlock
  unfold State.begin
  rw [hc]
  dsimp only
  rw [if_pos ⟨s.mayBegin_iff.2 ⟨hi, he, hr⟩, hcode⟩, if_pos refuses]
  rfl

theorem State.canRun.answer_setCueList {s : State} {code : Nat} {locks : List LockState} {c : Command}
    {rest : List Command} (h : s.canRun code locks c rest) (l : CueList) (a : Answer) :
    (s.setCueList l).answer a = (s.setCueList l).answered c rest a := h.answer (t := s.setCueList l) rfl a

section
variable {s : State} {ps : List Byte}

/-! ### CUE LIST TRUNCATE (R111) and CUE CURSOR (R119) -/

theorem cueListTruncate_of_lt (h : s.cueList.entries.length < (byteAt ps 0).toNat) :
    cueListTruncate ps s = s.answer (.bare .badParam) := if_pos h

/-- An accepted truncation clamps the cursor to the new length, which the list then has. -/
theorem cueListTruncate_of_le (h : (byteAt ps 0).toNat ≤ s.cueList.entries.length) : cueListTruncate ps s =
    (s.setCueList { s.cueList with
      entries := s.cueList.entries.take (byteAt ps 0).toNat
      cursor := min s.cueList.cursor (byteAt ps 0).toNat }).answer
        (.ok [byte (byteAt ps 0).toNat, byte (min s.cueList.cursor (byteAt ps 0).toNat)]) := by
  refine (if_neg (Nat.not_lt.2 h)).trans ?_
  rw [CueList.position, List.length_take, Nat.min_eq_left h]

/-- A cursor beyond a position is set to it, and another is kept. -/
theorem min_eq_clamped (cursor n : Nat) : min cursor n = if n < cursor then n else cursor := by
  split <;> omega

theorem cueCursor_of_le (h : (byteAt ps 0).toNat ≤ s.cueList.entries.length) : cueCursor ps s =
    (s.setCueList { s.cueList with cursor := (byteAt ps 0).toNat }).answer
      ⟨.done, false, [byte s.cueList.cursor, byte (byteAt ps 0).toNat]⟩ := by
  unfold cueCursor
  dsimp only
  rw [Nat.min_eq_left h, decide_eq_false (Nat.not_lt.2 h)]

theorem cueCursor_of_lt (h : s.cueList.entries.length < (byteAt ps 0).toNat) : cueCursor ps s =
    (s.setCueList { s.cueList with cursor := s.cueList.entries.length }).answer
      ⟨.done, true, [byte s.cueList.cursor, byte s.cueList.entries.length]⟩ := by
  unfold cueCursor
  dsimp only
  rw [Nat.min_eq_right h.le, decide_eq_true h]

/-! ### READ CUE LIST (R112) and READ LAST CUE (R122) -/

theorem readCueList_of_lt (h : 127 < (byteAt ps 0).toNat) : readCueList ps s = .bare .badParam := if_pos h

theorem readCueList_of_le (h : (byteAt ps 0).toNat ≤ 127) : readCueList ps s =
    .ok (entryBytes s.cueList.entries[(byteAt ps 0).toNat]? ++ s.cueList.position) := if_neg (Nat.not_lt.2 h)

theorem readLastCue_part0 (h : (byteAt ps 0).toNat = 0) : readLastCue ps s =
    .ok (lastCueBytes s.cueList.lastCue ++ [byte s.cueList.cursor, byte s.cueList.entries.length]) := by
  simp only [readLastCue, h]

theorem readLastCue_part1 (h : (byteAt ps 0).toNat = 1) : readLastCue ps s =
    .ok (lastCueBytes s.cueList.beforeFault ++ [byte s.cueList.cursor, byte s.cueList.entries.length]) := by
  simp only [readLastCue, h]

theorem readLastCue_bad (h : 1 < (byteAt ps 0).toNat) : readLastCue ps s = .bare .badParam := by
  unfold readLastCue
  split
  case h_3 => rfl
  all_goals omega

/-! ### CUE LIST WRITE (R110) -/

/-- The list with an entry written at an index below its length, or appended. -/
def CueList.write (l : CueList) (i : Nat) (e : CueEntry) : CueList :=
  { l with entries := if i < l.entries.length then l.entries.set i e else l.entries ++ [e] }

theorem CueList.write_of_lt {l : CueList} {i : Nat} (h : i < l.entries.length) (e : CueEntry) :
    l.write i e = { l with entries := l.entries.set i e }
      ∧ (l.write i e).position = [byte l.entries.length, byte l.cursor] := by
  have written : l.write i e = { l with entries := l.entries.set i e } := by rw [CueList.write, if_pos h]
  refine ⟨written, ?_⟩
  rw [written, CueList.position, List.length_set]

theorem CueList.write_of_length (l : CueList) (e : CueEntry) :
    l.write l.entries.length e = { l with entries := l.entries ++ [e] }
      ∧ (l.write l.entries.length e).position = [byte (l.entries.length + 1), byte l.cursor] := by
  have written : l.write l.entries.length e = { l with entries := l.entries ++ [e] } := by
    rw [CueList.write, if_neg (Nat.lt_irrefl _)]
  refine ⟨written, ?_⟩
  rw [written, CueList.position, List.length_append, List.length_singleton]

theorem flagDecode_of_le_one {code : Nat} (h : code ≤ 1) : flagDecode code = some (code == 1) := by
  obtain rfl | rfl : code = 0 ∨ code = 1 := by omega
  · rfl
  · rfl

/-- Each fault of the parameters is refused. -/
theorem cueListWrite_bad (h : s.cueList.entries.length < (byteAt ps 0).toNat ∨ 127 < (byteAt ps 0).toNat
    ∨ 9999 < (wordAt ps 1).toNat ∨ word24At ps 3 = 0 ∨ 1 < (byteAt ps 6).toNat) :
    cueListWrite ps s = s.answer (.bare .badParam) := by
  unfold cueListWrite
  dsimp only
  split
  · rename_i cue auto hcue hauto
    refine if_pos ?_
    rcases h with h | h | h | h | h
    · exact .inl h
    · exact .inr (.inl h)
    · cases (index?_of_le h).symm.trans hcue
    · exact .inr (.inr h)
    · cases (flagDecode_of_le h).symm.trans hauto
  · rfl

theorem cueListWrite_good {n : CueNumber} (hn : n.val = (wordAt ps 1).toNat) (hc : word24At ps 3 ≠ 0)
    (ha : (byteAt ps 6).toNat ≤ 1) (hi : (byteAt ps 0).toNat ≤ 127)
    (hl : (byteAt ps 0).toNat ≤ s.cueList.entries.length) : cueListWrite ps s =
      (s.setCueList (s.cueList.write (byteAt ps 0).toNat ⟨n, word24At ps 3, (byteAt ps 6).toNat == 1⟩)).answer
        (.ok (s.cueList.write (byteAt ps 0).toNat ⟨n, word24At ps 3, (byteAt ps 6).toNat == 1⟩).position) := by
  have accepted : ¬ ((byteAt ps 0).toNat > s.cueList.entries.length ∨ (byteAt ps 0).toNat ≥ Config.cueListCapacity
      ∨ word24At ps 3 = 0) := by
    rintro (h | h | h)
    · exact absurd hl (Nat.not_le.2 h)
    · exact absurd hi (Nat.not_le.2 h)
    · exact hc h
  simp only [cueListWrite, index?_of_eq hn.symm, flagDecode_of_le_one ha, if_neg accepted]
  rfl

end

/-! ### The commands -/

section
variable {s : State} {c : Command} {rest : List Command}

theorem exec_cueListWrite (h : s.canRun 0x46 [.unlocked] c rest) :
    exec .cueListWrite s = .next (cueListWrite c.params s) := congrArg Host.Outcome.next (h.begin (by decide) _)

theorem exec_cueListTruncate (h : s.canRun 0x47 [.unlocked] c rest) :
    exec .cueListTruncate s = .next (cueListTruncate c.params s) :=
  congrArg Host.Outcome.next (h.begin (by decide) _)

theorem exec_cueCursor (h : s.canRun 0x48 anyLock c rest) : exec .cueCursor s = .next (cueCursor c.params s) :=
  congrArg Host.Outcome.next (h.begin (by decide) _)

theorem exec_readCueList (h : s.canRun 0x49 anyLock c rest) :
    exec .readCueList s = .next (s.answered c rest (readCueList c.params s)) :=
  congrArg Host.Outcome.next (h.read (by decide) _)

theorem exec_readLastCue (h : s.canRun 0x4A anyLock c rest) :
    exec .readLastCue s = .next (s.answered c rest (readLastCue c.params s)) :=
  congrArg Host.Outcome.next (h.read (by decide) _)

end

/-- Settles O43. -/
theorem cueListTruncatedAndCursorSet : Obligations.CueListTruncatedAndCursorSet := by
  refine ⟨fun s c rest h => ⟨fun beyond => ?_, fun within => ?_⟩,
    fun s c rest h => congrArg Host.Outcome.next (h.refused (by decide) _),
    fun s c rest h => ⟨fun within => ?_, fun beyond => ?_⟩⟩
  · rw [exec_cueListTruncate h, cueListTruncate_of_lt beyond, h.answer rfl]
    rfl
  · rw [exec_cueListTruncate h, cueListTruncate_of_le within, h.answer_setCueList, min_eq_clamped]
    rfl
  · rw [exec_cueCursor h, cueCursor_of_le within, h.answer_setCueList]
  · rw [exec_cueCursor h, cueCursor_of_lt beyond, h.answer_setCueList]

/-- Settles O44. -/
theorem cueListRead : Obligations.CueListRead := by
  refine ⟨fun s c rest h => ⟨fun beyond => ?_, fun e inRange here => ?_, fun inRange past => ?_⟩,
    fun s c rest h => ⟨fun part => ?_, fun part => ?_, fun beyond => ?_⟩⟩
  · rw [exec_readCueList h, readCueList_of_lt beyond]
    rfl
  · rw [exec_readCueList h, readCueList_of_le inRange, here, entryBytes, byte_bit]
    rfl
  · rw [exec_readCueList h, readCueList_of_le inRange, List.getElem?_eq_none past]
    rfl
  · rw [exec_readLastCue h, readLastCue_part0 part]
    cases s.cueList.lastCue <;> rfl
  · rw [exec_readLastCue h, readLastCue_part1 part]
    cases s.cueList.beforeFault <;> rfl
  · rw [exec_readLastCue h, readLastCue_bad beyond]
    rfl

/-- Settles O45. -/
theorem cueListWritten : Obligations.CueListWritten := by
  refine ⟨fun s c rest h => congrArg Host.Outcome.next (h.refused (by decide) _),
    fun s c rest h => ⟨fun fault => ?_, fun n hn hc ha hi => ⟨fun below => ?_, fun atLength => ?_⟩⟩⟩
  · rw [exec_cueListWrite h, cueListWrite_bad fault, h.answer rfl]
    rfl
  · obtain ⟨written, position⟩ := CueList.write_of_lt below
      ⟨n, word24At c.params 3, (byteAt c.params 6).toNat == 1⟩
    rw [exec_cueListWrite h, cueListWrite_good hn hc ha hi below.le, h.answer_setCueList, position, written]
    rfl
  · obtain ⟨written, position⟩ := s.cueList.write_of_length
      ⟨n, word24At c.params 3, (byteAt c.params 6).toNat == 1⟩
    rw [exec_cueListWrite h, cueListWrite_good hn hc ha hi atLength.le, h.answer_setCueList, atLength, position,
      written]
    rfl

end Sys2Proof.Machine
end

section
/-!
PROOFS, STANDBY NEXT, BACK and SKIP (R88, R98, R99, R116 to R118): O42.
-/

namespace Sys2Proof.Machine

/-! ### A circuit that a STANDBY reaches (R88) -/

section
variable {x : Circuit} {cue : Option CueNumber} {clock : Stamp}

theorem Circuit.opens_iff : x.opens = true ↔ x.state = .idle ∧ x.members ≠ [] := by
  simp [Circuit.opens]

theorem Circuit.refusesStandby_iff : x.refusesStandby = true ↔ x.state = .idle ∧ x.members = [] := by
  simp [Circuit.refusesStandby]

theorem Circuit.warned_of_opens (h : x.opens = true) : x.warned cue clock = x.enterStandby cue clock := by
  obtain ⟨idle, members⟩ := Circuit.opens_iff.1 h
  simp only [Circuit.warned, idle, List.isEmpty_iff, if_neg members]

theorem Circuit.warned_state_of_not_opens (h : x.opens = false) : (x.warned cue clock).state = x.state := by
  unfold Circuit.warned
  split
  case h_1 idle =>
    have empty : x.members = [] := by
      by_contra members
      exact Bool.false_ne_true (h.symm.trans (Circuit.opens_iff.2 ⟨idle, members⟩))
    rw [empty]
    rfl
  all_goals rfl

/-- A STANDBY changes the state of a circuit exactly where it posts a CUE_OPEN. -/
theorem Circuit.warned_changes : (x.state != (x.warned cue clock).state) = x.opens := by
  cases h : x.opens with
  | true =>
    rw [Circuit.warned_of_opens h, (Circuit.opens_iff.1 h).1]
    rfl
  | false =>
    rw [Circuit.warned_state_of_not_opens h]
    exact bne_self_eq_false _

end

/-! ### STANDBY NEXT (R117) -/

section
variable (s : State) (e : CueEntry)

/-- A circuit after STANDBY was given to the circuits of an entry. -/
def State.calledCircuit (c : CircuitIx) : Circuit :=
  if e.circuits.getLsbD c.val then s.circuits[c].warned (some e.cue) s.trunk.clock else s.circuits[c]

/-- The circuits of an entry that STANDBY brings to STANDBY, each of which posts a CUE_OPEN (R99). -/
def State.calledList : List CircuitIx :=
  (List.finRange 24).filter fun c =>
    e.circuits.getLsbD c.val && s.circuits[c].state == .idle && !s.circuits[c].members.isEmpty

/-- The state at the end of STANDBY NEXT but for its notices. -/
def State.nextCalled : State := (s.setCircuits (Vector.ofFn (s.calledCircuit e))).postAll (s.calledList e)

theorem State.mem_calledList {c : CircuitIx} :
    c ∈ s.calledList e ↔ e.circuits.getLsbD c.val = true ∧ s.circuits[c].opens = true := by
  simp [State.calledList, Circuit.opens_iff, and_assoc]

/-- CUE_OPEN events fill the key event queue up to 32, and each that finds it full is reported. -/
theorem State.nextCalled_eq : s.nextCalled e =
    ((s.setCircuits (Vector.ofFn (s.calledCircuit e))).withQueue
      (s.walker.queue ++ ((s.calledList e).take (32 - s.walker.queue.length)).map .cueOpen)).setRequests
        (s.requests ++ ((s.calledList e).drop (32 - s.walker.queue.length)).map fun c =>
          .fault .queueFull (.circuit c)) := by
  rw [State.nextCalled, State.postAll_eq]
  simp only [State.withQueue, State.setCircuits_walker, State.setCircuits_requests]

theorem State.nextCalled_circuits : (s.nextCalled e).circuits = Vector.ofFn (s.calledCircuit e) := by
  rw [State.nextCalled_eq]
  simp [State.withQueue]

theorem State.nextCalled_get (c : CircuitIx) : (s.nextCalled e).circuits[c] = s.calledCircuit e c := by
  rw [State.nextCalled_circuits]
  exact Vector.getElem_ofFn _

theorem State.nextCalled_trunk : (s.nextCalled e).trunk = s.trunk := by
  rw [State.nextCalled_eq]
  simp [State.withQueue]

/-- STANDBY to every circuit of an entry, and the circuits that refuse it. -/
theorem State.standbyAll_entry : (s.standbyAll e.cue e.circuitList).1 = s.nextCalled e
    ∧ ∀ c : CircuitIx, (s.standbyAll e.cue e.circuitList).2.getLsbD c.val =
      (e.circuits.getLsbD c.val && s.circuits[c].refusesStandby) := by
  obtain ⟨given, refused⟩ := s.standbyAll_eq e.cue e.circuitList e.circuitList_nodup
  refine ⟨given.trans ?_, fun c => (refused c).trans ?_⟩
  · have circuits : warnedAll e.circuitList e.cue s.clock s.circuits = Vector.ofFn (s.calledCircuit e) := by
      simp only [warnedAll, CueEntry.mem_circuitList]
      rfl
    have opened : (e.circuitList.filter fun c => s.circuits[c].opens) = s.calledList e := by
      rw [CueEntry.circuitList, List.filter_filter]
      refine List.filter_congr fun c _ => ?_
      rw [Circuit.opens, Bool.and_comm, Bool.and_assoc]
    rw [circuits, opened]
    rfl
  · simp only [CueEntry.mem_circuitList, Bool.decide_eq_true]

/-- The circuits whose state changes are those that STANDBY brings to STANDBY. -/
theorem State.calledCircuit_changes (c : CircuitIx) : (s.circuits[c].state != (s.calledCircuit e c).state) =
    (e.circuits.getLsbD c.val && s.circuits[c].state == .idle && !s.circuits[c].members.isEmpty) := by
  rw [Bool.and_assoc]
  unfold State.calledCircuit
  cases e.circuits.getLsbD c.val with
  | true => exact Circuit.warned_changes
  | false => exact bne_self_eq_false _

theorem State.calledCircuit_of_mem {c : CircuitIx} (h : c ∈ s.calledList e) :
    s.calledCircuit e c = s.circuits[c].enterStandby (some e.cue) s.trunk.clock := by
  obtain ⟨named, opens⟩ := (s.mem_calledList e).1 h
  rw [State.calledCircuit, if_pos named, Circuit.warned_of_opens opens]

/-- One CUE_EVENT for each circuit that comes to STANDBY (R98). -/
theorem State.nextCalled_offerChanges : (s.nextCalled e).offerChanges s.circuits =
    ((s.calledList e).map fun c =>
      NoticeBody.cueEvent c .standby (some e.cue) false s.trunk.clock).foldl State.offer (s.nextCalled e) := by
  have changed : ((List.finRange 24).filter fun c => s.circuits[c].state != (s.calledCircuit e c).state)
      = s.calledList e := List.filter_congr fun c _ => s.calledCircuit_changes e c
  rw [State.offerChanges_of_get (s.nextCalled_get e), changed, State.nextCalled_trunk]
  refine congrArg (List.foldl State.offer _) (List.map_congr_left fun c hc => ?_)
  rw [s.calledCircuit_of_mem e hc]
  rfl

variable {s e}

/-- A circuit of the entry accepts the STANDBY. -/
theorem State.any_accepts_iff : (e.circuitList.any fun c => !(s.standbyAll e.cue e.circuitList).2.getLsbD c.val) = true
    ↔ ∃ c : CircuitIx, e.circuits.getLsbD c.val = true
        ∧ ¬ (s.circuits[c].state = .idle ∧ s.circuits[c].members = []) := by
  rw [List.any_eq_true]
  refine exists_congr fun c => ?_
  rw [CueEntry.mem_circuitList]
  refine and_congr_right fun named => ?_
  rw [(s.standbyAll_entry e).2 c, named, Bool.true_and, Bool.not_eq_true', ← Circuit.refusesStandby_iff,
    Bool.not_eq_true]

theorem State.standbyNext_of_end (h : s.cueList.atCursor = none) : s.standbyNext = (s, .bare .listEnd) := by
  rw [State.standbyNext, h]

/-- STANDBY NEXT is DONE where a circuit of the entry accepts, and EMPTY_CIRCUIT where every one refuses; the state
is the same (R117). -/
theorem State.standbyNext_of_entry (he : s.cueList.atCursor = some e) : s.standbyNext =
    ((s.nextCalled e).offerChanges s.circuits,
      if e.circuitList.any fun c => !(s.standbyAll e.cue e.circuitList).2.getLsbD c.val then
        ⟨.done, none, some e.cue, (s.standbyAll e.cue e.circuitList).2, 0⟩
      else ⟨.emptyCircuit, none, none, (s.standbyAll e.cue e.circuitList).2, 0⟩) := by
  rw [State.standbyNext, he]
  dsimp only
  rw [(s.standbyAll_entry e).1]
  split <;> rfl

theorem State.standbyNext_refused (he : s.cueList.atCursor = some e) :
    s.standbyNext.2.refused = (s.standbyAll e.cue e.circuitList).2 := by
  rw [State.standbyNext_of_entry he]
  dsimp only
  split <;> rfl

end

/-- Settles O42. -/
theorem listMovesRule : Obligations.ListMovesRule := by
  refine fun s => ⟨State.standbyNext_of_end, fun e he => ?_, fun hc => if_pos hc, fun hc => if_neg hc.ne',
    fun hc => if_pos hc, fun hc => if_neg (Nat.not_le.2 hc)⟩
  have next := State.standbyNext_of_entry he
  refine ⟨s.nextCalled e, s.nextCalled_circuits e, ?_, ?_, fun c => ?_, fun accepts => ?_, fun refuse => ?_⟩
  · rw [s.nextCalled_circuits e]
    exact s.nextCalled_eq e
  · rw [next]
    exact s.nextCalled_offerChanges e
  · rw [State.standbyNext_refused he, (s.standbyAll_entry e).2 c, Bool.and_assoc]
    rfl
  · rw [next, if_pos (State.any_accepts_iff.2 accepts)]
    exact ⟨rfl, rfl⟩
  · rw [next, if_neg fun any => ?_]
    · exact ⟨rfl, rfl⟩
    · obtain ⟨c, named, accepts⟩ := State.any_accepts_iff.1 any
      exact accepts (refuse c named)

end Sys2Proof.Machine
end

section
/-!
PROOFS, the good frames of a station port that is UP, and the desk messages they carry (R123, R128, R132 to R137,
R191, 12.2, 12.3): O16.
-/

namespace Sys2Proof.Machine

/-! ### The fields of an uplink frame (R191, 12.2) -/

/-- Two bytes, high byte first, as a number. -/
theorem append_bytes (a b : Byte) : a ++ b = BitVec.ofNat 16 (256 * a.toNat + b.toNat) := by
  refine BitVec.eq_of_toNat_eq ?_
  rw [BitVec.toNat_append, ← Nat.shiftLeft_add_eq_or_of_lt b.isLt, Nat.shiftLeft_eq, BitVec.toNat_ofNat]
  omega

theorem getLsbD_zero_byte (b : Byte) : b.getLsbD 0 = decide (b.toNat % 2 = 1) := by
  rw [BitVec.getLsbD, Nat.testBit_zero]

theorem sumGood_six (b0 b1 b2 b3 b4 b5 : Byte) :
    sumGood [b0, b1, b2, b3, b4, b5] = true ↔ b0 + b1 + b2 + b3 + b4 + b5 = 0 := by
  simp [sumGood, add_assoc]

theorem Uplink.read_six (b0 b1 b2 b3 b4 b5 : Byte) : Uplink.read [b0, b1, b2, b3, b4, b5] =
    if b0 + b1 + b2 + b3 + b4 + b5 = 0 then
      some ⟨BitVec.ofNat 16 (256 * b0.toNat + b1.toNat), BitVec.ofNat 7 b2.toNat, b3,
        decide (b4.toNat % 2 = 1)⟩
    else none := by
  rw [← append_bytes, ← getLsbD_zero_byte]
  refine if_congr ?_ ?_ rfl
  · exact (and_iff_right rfl).trans (sumGood_six b0 b1 b2 b3 b4 b5)
  · rfl

/-- A frame of another length is bad. -/
theorem Uplink.read_of_length {b : List Byte} (h : b.length ≠ 6) : Uplink.read b = none := if_neg fun good => h good.1

theorem Uplink.read_eq (b : List Byte) : Uplink.read b =
    match b with
    | [b0, b1, b2, b3, b4, b5] =>
      if b0 + b1 + b2 + b3 + b4 + b5 = 0 then
        some ⟨BitVec.ofNat 16 (256 * b0.toNat + b1.toNat), BitVec.ofNat 7 b2.toNat, b3,
          decide (b4.toNat % 2 = 1)⟩
      else none
    | _ => none := by
  split
  · exact Uplink.read_six _ _ _ _ _ _
  · rename_i other
    refine Uplink.read_of_length fun six => ?_
    match b, six with
    | [b0, b1, b2, b3, b4, b5], _ => exact other b0 b1 b2 b3 b4 b5 rfl

/-! ### The kinds of desk messages (R123, R137, 12.3) -/

/-- A request of a circuit is good below circuit 24. -/
theorem DeskRequest.decode_circuit {kind : Nat} {f : CircuitIx → DeskRequest}
    (hk : kind = 1 ∧ f = .standby ∨ kind = 2 ∧ f = .go ∨ kind = 3 ∧ f = .cancel) (n : Nat) :
    (∀ c : CircuitIx, n = c.val → DeskRequest.decode kind n = .ok (f c))
      ∧ (24 ≤ n → DeskRequest.decode kind n = .error .badParam) := by
  have decoded : DeskRequest.decode kind n =
      match index? 24 n with | some c => .ok (f c) | none => .error .badParam := by
    rcases hk with ⟨rfl, rfl⟩ | ⟨rfl, rfl⟩ | ⟨rfl, rfl⟩ <;> rfl
  refine ⟨fun c hc => ?_, fun hn => ?_⟩
  · rw [decoded, index?_of_eq hc]
  · rw [decoded, index?_of_le hn]

/-- A list request has the circuit field 255. -/
theorem DeskRequest.decode_list {kind : Nat} {r : DeskRequest} (hk : kind = 4 ∧ r = .goNext
    ∨ kind = 5 ∧ r = .standbyNext ∨ kind = 6 ∧ r = .back ∨ kind = 7 ∧ r = .skip) (n : Nat) :
    (n = 255 → DeskRequest.decode kind n = .ok r) ∧ (n ≠ 255 → DeskRequest.decode kind n = .error .badParam) := by
  have decoded : DeskRequest.decode kind n = if n = 255 then .ok r else .error .badParam := by
    rcases hk with ⟨rfl, rfl⟩ | ⟨rfl, rfl⟩ | ⟨rfl, rfl⟩ | ⟨rfl, rfl⟩ <;> rfl
  exact ⟨fun hn => decoded.trans (if_pos hn), fun hn => decoded.trans (if_neg hn)⟩

theorem DeskRequest.decode_unknown {kind : Nat} (hk : kind = 0 ∨ 7 < kind) (n : Nat) :
    DeskRequest.decode kind n = .error .unknown := by
  unfold DeskRequest.decode
  dsimp only
  split
  case h_8 => rfl
  all_goals omega

/-! ### Key edges (R134) -/

/-- The answer that the edge of an answer key is (R134, R135). -/
def answerRequests (p : Port) (l : CrewLamp) (was is : Bool) : List Request := if !was && is then [.answer p l] else []

theorem State.answerEdge_eq (s : State) (p : Port) (l : CrewLamp) (was is : Bool) :
    s.answerEdge p l was is = s.setRequests (s.requests ++ answerRequests p l was is) := by
  unfold State.answerEdge answerRequests
  split
  · rfl
  · rw [List.append_nil]
    rfl

/-- The key events that a frame offers (R59, R134). -/
def State.offeredKeys (s : State) (p : Port) (before after : BitVec 7) : List KeyEvent :=
  if s.ports[p].resync then [] else edgeEvents p before after s.trunk.clock (List.finRange 5)

/-- A key event of the frame finds 28 events queued (R59). -/
def State.keyOverrun (s : State) (p : Port) (before after : BitVec 7) : Bool :=
  decide (28 - s.walker.queue.length < (s.offeredKeys p before after).length)

/-- The requests that the edges of a frame hand over. -/
def State.edgeRequests (s : State) (p : Port) (before after : BitVec 7) : List Request :=
  (if s.keyOverrun p before after then [.fault .keyOverrun (.port p)] else [])
    ++ answerRequests p .a (before.getLsbD 5) (after.getLsbD 5)
    ++ answerRequests p .b (before.getLsbD 6) (after.getLsbD 6)

/-- The edges of a frame: key events are admitted as far as there is room, the resync flag and KEY_OVERRUN follow
the first that is not, and the answers are handed over. -/
theorem State.edges_eq (s : State) (p : Port) (before after : BitVec 7) : s.edges p before after =
    ((s.setPort p { s.ports[p] with resync := s.ports[p].resync || s.keyOverrun p before after }).withQueue
      (s.walker.queue ++ (s.offeredKeys p before after).take (28 - s.walker.queue.length))).setRequests
        (s.requests ++ s.edgeRequests p before after) := by
  unfold State.edges
  dsimp only
  rw [State.answerEdge_eq, State.answerEdge_eq, State.foldl_talkEdge]
  simp only [State.setRequests_setRequests, State.setRequests_requests, List.append_assoc, State.edgeRequests]
  rfl

/-! ### Desk messages (R136, R137) -/

/-- The desk assembler after one more byte (R136). -/
def assembledBytes (held : List Byte) (b : Byte) (start : Bool) : List Byte :=
  if start then [b] else if held.length = 0 ∨ 3 ≤ held.length then [] else held ++ [b]

/-- The desk message that one more byte completes (R136). -/
def completedMessage (held : List Byte) (b : Byte) (start : Bool) : Option (List Byte) :=
  if start = false ∧ 3 ≤ held.length then some (held ++ [b]) else none

theorem assemble_eq (held : List Byte) (b : Byte) (start : Bool) :
    assemble held b start = (assembledBytes held b start, completedMessage held b start) := by
  unfold assemble assembledBytes completedMessage
  cases start with
  | true => rfl
  | false =>
    cases held with
    | nil => rfl
    | cons b0 rest =>
      by_cases full : 2 ≤ rest.length
      · simp [full, show ¬ rest.length + 1 < 3 by omega]
      · simp [full, show rest.length + 1 < 3 by omega]

/-- What a completed message brings about: the request handed on, or the reply of one that reaches no block, in a
reply buffer that holds `replies` (R137). -/
def messageOutcome (p : Port) (replies : List (List Byte)) (m : List Byte) : List Request × List (List Byte) :=
  if m.sum = 0 then
    match DeskRequest.decode (byteAt m 0).toNat (byteAt m 1).toNat with
    | .ok r => ([.desk p (byteAt m 2) true r], [])
    | .error status =>
      ([], if replies.length < 2 then [withSumCheck [0x80, byteAt m 2, byte status.code]] else [])
  else ([], [])

section
variable {s : State} {p : Port}

theorem State.deskReply_of_up (hu : s.ports[p].link = .up) (seq : Byte) (status : Status) :
    s.deskReply p seq status = s.setPort p { s.ports[p] with
      replies := s.ports[p].replies ++ if s.ports[p].replies.length < 2 then
        [withSumCheck [0x80, seq, byte status.code]] else [] } := by
  unfold State.deskReply
  by_cases room : s.ports[p].replies.length < 2
  · rw [if_pos room]
    exact if_pos ⟨hu, room⟩
  · rw [if_neg room, List.append_nil]
    exact (if_neg fun h => room h.2).trans (s.setPort_self p).symm

/-- The state in which a desk's requests have been handed on and its replies have joined its buffer. -/
def State.deskGives (s : State) (p : Port) (out : List Request × List (List Byte)) : State :=
  (s.setPort p { s.ports[p] with replies := s.ports[p].replies ++ out.2 }).setRequests (s.requests ++ out.1)

theorem State.deskGives_requests (rs : List Request) : s.deskGives p (rs, []) = s.setRequests (s.requests ++ rs) := by
  unfold State.deskGives
  dsimp only
  rw [List.append_nil]
  exact congrArg (State.setRequests · _) (s.setPort_self p)

theorem State.deskGives_nothing : s.deskGives p ([], []) = s := by
  rw [State.deskGives_requests, List.append_nil]
  rfl

theorem State.deskGives_replies (bs : List (List Byte)) : s.deskGives p ([], bs) =
    s.setPort p { s.ports[p] with replies := s.ports[p].replies ++ bs } := by
  unfold State.deskGives
  rw [List.append_nil]
  rfl

theorem State.deskMessage_eq (hu : s.ports[p].link = .up) (m : List Byte) :
    s.deskMessage p m = s.deskGives p (messageOutcome p s.ports[p].replies m) := by
  unfold State.deskMessage messageOutcome
  by_cases good : m.sum = 0
  · have agrees : sumGood m = true := beq_iff_eq.2 good
    rw [if_pos agrees, if_pos good]
    dsimp only
    cases DeskRequest.decode (byteAt m 0).toNat (byteAt m 1).toNat with
    | ok r => exact (State.deskGives_requests _).symm
    | error status => exact (State.deskReply_of_up hu _ _).trans (State.deskGives_replies _).symm
  · have disagrees : ¬ sumGood m = true := mt beq_iff_eq.1 good
    rw [if_neg disagrees, if_neg good, State.deskGives_nothing]

/-- The bytes that a port holds of a desk message, its frame taken: only a DESK assembles. -/
def StationPort.assembledWith (x : StationPort) (u : Uplink) : List Byte :=
  if x.kind ≠ .desk then x.assembler else assembledBytes x.assembler u.message u.start

/-- The desk message that a frame completes. -/
def StationPort.messageWith (x : StationPort) (u : Uplink) : Option (List Byte) :=
  if x.kind = .desk ∧ u.start = false ∧ 3 ≤ x.assembler.length then some (x.assembler ++ [u.message]) else none

theorem StationPort.messageWith_of_desk {x : StationPort} (h : x.kind = .desk) (u : Uplink) :
    x.messageWith u = completedMessage x.assembler u.message u.start := if_congr (and_iff_right h) rfl rfl

theorem StationPort.messageWith_of_other {x : StationPort} (h : x.kind ≠ .desk) (u : Uplink) :
    x.messageWith u = none := if_neg fun desk => h desk.1

/-- What the message byte of a frame brings about. -/
def StationPort.deskOutcome (x : StationPort) (p : Port) (u : Uplink) : List Request × List (List Byte) :=
  match x.messageWith u with
  | none => ([], [])
  | some m => messageOutcome p x.replies m

theorem State.deskByte_eq (hu : s.ports[p].link = .up) (u : Uplink) : s.deskByte p u =
    (s.setPort p { s.ports[p] with
      assembler := s.ports[p].assembledWith u
      replies := s.ports[p].replies ++ (s.ports[p].deskOutcome p u).2 }).setRequests
        (s.requests ++ (s.ports[p].deskOutcome p u).1) := by
  have given (bytes : List Byte) (out : List Request × List (List Byte)) :
      (s.setPort p { s.ports[p] with assembler := bytes }).deskGives p out =
        (s.setPort p { s.ports[p] with
          assembler := bytes, replies := s.ports[p].replies ++ out.2 }).setRequests (s.requests ++ out.1) := by
    simp [State.deskGives]
  rw [← given]
  unfold State.deskByte StationPort.assembledWith StationPort.deskOutcome
  dsimp only
  by_cases desk : s.ports[p].kind = .desk
  · rw [if_pos desk, if_neg (not_not.2 desk), StationPort.messageWith_of_desk desk, assemble_eq]
    dsimp only
    cases completedMessage s.ports[p].assembler u.message u.start with
    | none => exact State.deskGives_nothing.symm
    | some m =>
      refine (State.deskMessage_eq ?_ m).trans ?_
      · simpa using hu
      · simp
  · rw [if_neg desk, if_pos desk, StationPort.messageWith_of_other desk, State.deskGives_nothing]
    exact (s.setPort_self p).symm

/-! ### Good frames (R128, R132) -/

theorem exec_linkReport_good {b : List Byte} {u : Uplink} (hk : s.ports[p].kind ≠ .unused)
    (good : Uplink.read b = some u) : exec (.linkReport p (.frame b)) s = .next (s.goodFrame p u) := by
  show execLinkReport p (.frame b) s = _
  simp only [execLinkReport, if_neg hk, good]

/-- A port that is UP after its runs, FIFO and key bitmap have taken a good frame (R128, R132, R133). -/
def StationPort.heard (x : StationPort) (u : Uplink) : StationPort :=
  { x with
    goodRun := min (x.goodRun + 1) 16, badRun := 0, lastGood := u.sample, keys := u.keys
    fifo := if x.fifo.length < 8 then x.fifo ++ [u.sample] else x.fifo.tail ++ [u.sample]
    slips := if x.fifo.length < 8 then x.slips else min (x.slips + 1) 65535 }

theorem State.goodFrame_of_up (hu : s.ports[p].link = .up) (u : Uplink) : s.goodFrame p u =
    ((s.setPort p (s.ports[p].heard u)).edges p s.ports[p].keys u.keys).deskByte p u := by
  have taken : ({ s.ports[p] with goodRun := min (s.ports[p].goodRun + 1) 16, badRun := 0 } : StationPort).takeFrame u
      = s.ports[p].heard u := StationPort.push_eq _ _
  unfold State.goodFrame
  dsimp only
  split
  case h_3 => exact congrArg (fun x => State.deskByte p u ((s.setPort p x).edges p s.ports[p].keys u.keys)) taken
  all_goals
    rename_i other
    cases hu.symm.trans other

/-- The record of a port that is UP after a good frame, its edges and its desk byte included (R128, R132 to R137). -/
def State.heardPort (s : State) (p : Port) (u : Uplink) : StationPort :=
  { s.ports[p].heard u with
    resync := s.ports[p].resync || s.keyOverrun p s.ports[p].keys u.keys
    assembler := s.ports[p].assembledWith u
    replies := s.ports[p].replies ++ (s.ports[p].deskOutcome p u).2 }

/-- A good frame of a port that is UP changes its record, the key event queue and the requests alone. -/
theorem State.goodFrame_eq (hu : s.ports[p].link = .up) (u : Uplink) : s.goodFrame p u =
    ((s.setPort p (s.heardPort p u)).withQueue (s.walker.queue
      ++ (s.offeredKeys p s.ports[p].keys u.keys).take (28 - s.walker.queue.length))).setRequests
        (s.requests ++ s.edgeRequests p s.ports[p].keys u.keys ++ (s.ports[p].deskOutcome p u).1) := by
  have port (x : StationPort) : (s.setPort p x).ports[p] = x := put_get_same _ _ _
  have offered : (s.setPort p (s.ports[p].heard u)).offeredKeys p s.ports[p].keys u.keys =
      s.offeredKeys p s.ports[p].keys u.keys := by
    rw [State.offeredKeys, port]
    rfl
  have overrun : (s.setPort p (s.ports[p].heard u)).keyOverrun p s.ports[p].keys u.keys =
      s.keyOverrun p s.ports[p].keys u.keys := by
    rw [State.keyOverrun, offered]
    rfl
  rw [State.goodFrame_of_up hu, State.edges_eq, State.edgeRequests, offered, overrun, port, State.setPort_setPort]
  have edged (q : List KeyEvent) (rs : List Request) (x : StationPort) :
      (((s.setPort p x).withQueue q).setRequests rs).ports[p] = x := port x
  rw [State.deskByte_eq (by rw [edged]; exact hu), edged]
  rw [State.setRequests_setPort]
  have twice (x y : StationPort) (q : List KeyEvent) :
      ((s.setPort p x).withQueue q).setPort p y = (s.setPort p y).withQueue q :=
    congrArg (State.withQueue · q) (s.setPort_setPort p x y)
  rw [twice]
  rfl

end

/-- Settles O16. -/
theorem goodFrameOfAnUpPort : Obligations.GoodFrameOfAnUpPort := by
  refine ⟨Uplink.read_eq, fun n => ⟨DeskRequest.decode_circuit (.inl ⟨rfl, rfl⟩) n,
    DeskRequest.decode_circuit (.inr (.inl ⟨rfl, rfl⟩)) n, DeskRequest.decode_circuit (.inr (.inr ⟨rfl, rfl⟩)) n,
    DeskRequest.decode_list (.inl ⟨rfl, rfl⟩) n, DeskRequest.decode_list (.inr (.inl ⟨rfl, rfl⟩)) n,
    DeskRequest.decode_list (.inr (.inr (.inl ⟨rfl, rfl⟩))) n,
    DeskRequest.decode_list (.inr (.inr (.inr ⟨rfl, rfl⟩))) n, fun kind hk => DeskRequest.decode_unknown hk n⟩,
    fun s p b u hk hu good => ⟨s.goodFrame p u, exec_linkReport_good hk good, ?_⟩⟩
  rw [State.goodFrame_eq hu]
  refine ⟨?_, fun q hq => put_get_other _ hq.symm _, rfl, ?_, rfl, rfl, rfl, rfl, rfl, rfl, rfl, rfl, rfl, rfl⟩
  · exact put_get_same s.ports p (s.heardPort p u)
  · show s.requests ++ s.edgeRequests p s.ports[p].keys u.keys ++ (s.ports[p].deskOutcome p u).1 = _
    rw [State.edgeRequests, ← List.append_assoc, ← List.append_assoc]
    rfl

end Sys2Proof.Machine
end

section
/-!
PROOFS, the link reports of a station port that is not UP: its training, and the frame that makes it UP (R127 to
R129): O15.
-/

namespace Sys2Proof.Machine

section
variable {s : State} {p : Port}

/-! ### The reports a port takes (R127, R128) -/

theorem exec_linkReport_unused (hk : s.ports[p].kind = .unused) (r : UplinkReport) :
    exec (.linkReport p r) s = .next s := congrArg Host.Outcome.next (if_pos hk)

/-- A bad and a missing frame differ only in whether a sample stands in for the frame. -/
theorem exec_linkReport_lost (hk : s.ports[p].kind ≠ .unused) {r : UplinkReport}
    (lost : r = .missing ∨ ∃ b, r = .frame b ∧ Uplink.read b = none) :
    ∃ held, exec (.linkReport p r) s = .next (s.lostFrame p held) := by
  rcases lost with rfl | ⟨b, rfl, bad⟩
  · exact ⟨false, exec_linkReport_missing hk⟩
  · exact ⟨true, exec_linkReport_bad hk bad⟩

/-! ### Good frames of a port that is not UP (R128, R129) -/

theorem State.goodFrame_of_down (hd : s.ports[p].link = .down) (u : Uplink) : s.goodFrame p u =
    s.setPort p { s.ports[p] with link := .training, goodRun := 1, badRun := 0, keys := u.keys } := by
  unfold State.goodFrame
  simp only [hd]

theorem State.goodFrame_of_training (ht : s.ports[p].link = .training) (short : s.ports[p].goodRun < 15)
    (u : Uplink) : s.goodFrame p u =
    s.setPort p { s.ports[p] with goodRun := s.ports[p].goodRun + 1, badRun := 0, keys := u.keys } := by
  have run : min (s.ports[p].goodRun + 1) Config.goodRunUp = s.ports[p].goodRun + 1 :=
    Nat.min_eq_left (Nat.succ_le_succ (Nat.le_of_lt short))
  have below : s.ports[p].goodRun + 1 < Config.goodRunUp := Nat.succ_lt_succ short
  unfold State.goodFrame
  simp only [ht, run, if_pos below]

/-- The record of a port that its sixteenth good frame makes UP, before its message byte is looked at (R129, R132). -/
def StationPort.raised (x : StationPort) (u : Uplink) : StationPort :=
  { x with
    link := .up, goodRun := 16, badRun := 0, keys := u.keys, resync := true
    lastGood := u.sample, fifo := [u.sample] }

/-- The first sample of a port that comes UP finds its FIFO empty, so nothing is dropped (R133). -/
theorem StationPort.takeFrame_of_empty {x : StationPort} (empty : x.fifo = []) (u : Uplink) :
    ({ x with link := .up, goodRun := 16, badRun := 0, resync := true } : StationPort).takeFrame u = x.raised u := by
  rw [StationPort.takeFrame, StationPort.push_eq]
  simp [StationPort.raised, empty]

theorem State.goodFrame_of_sixteenth (ht : s.ports[p].link = .training) (fifteen : s.ports[p].goodRun = 15)
    (empty : s.ports[p].fifo = []) (u : Uplink) : s.goodFrame p u =
    ((s.setPort p (s.ports[p].raised u)).hand (.lostMark p false)).deskByte p u := by
  have run : min (15 + 1) Config.goodRunUp = 16 := rfl
  have reached : ¬ 16 < Config.goodRunUp := Nat.lt_irrefl 16
  unfold State.goodFrame
  simp only [ht, fifteen, run, if_neg reached]
  rw [StationPort.takeFrame_of_empty empty]

/-- A byte that reaches an idle assembler completes no message (R136). -/
theorem StationPort.deskOutcome_of_idle {x : StationPort} (idle : x.assembler = []) (u : Uplink) :
    x.deskOutcome p u = ([], []) := by
  have incomplete : ¬ (x.kind = .desk ∧ u.start = false ∧ 3 ≤ x.assembler.length) := by simp [idle]
  rw [StationPort.deskOutcome, StationPort.messageWith, if_neg incomplete]

/-- An idle assembler takes only a byte that starts a message (R136). -/
theorem StationPort.assembledWith_of_idle {x : StationPort} (idle : x.assembler = []) (u : Uplink) :
    x.assembledWith u = if x.kind = .desk ∧ u.start then [u.message] else [] := by
  by_cases desk : x.kind = .desk <;> simp [StationPort.assembledWith, assembledBytes, desk, idle]

/-- The message byte of a port that is UP and whose assembler is idle changes the assembler alone. -/
theorem State.deskByte_of_idle (hu : s.ports[p].link = .up) (idle : s.ports[p].assembler = []) (u : Uplink) :
    s.deskByte p u = s.setPort p { s.ports[p] with
      assembler := if s.ports[p].kind = .desk ∧ u.start then [u.message] else [] } := by
  rw [State.deskByte_eq hu, StationPort.deskOutcome_of_idle idle, StationPort.assembledWith_of_idle idle,
    List.append_nil, List.append_nil]
  rfl

/-- The sixteenth good frame in a row makes a port UP, takes the lost marks of its members back, and gives its
message byte to a DESK's assembler (R128, R129, R136). -/
theorem State.goodFrame_raises (ht : s.ports[p].link = .training) (fifteen : s.ports[p].goodRun = 15)
    (empty : s.ports[p].fifo = []) (idle : s.ports[p].assembler = []) (u : Uplink) : s.goodFrame p u =
    (s.setPort p { s.ports[p].raised u with
      assembler := if s.ports[p].kind = .desk ∧ u.start then [u.message] else [] }).setRequests
        (s.requests ++ [.lostMark p false]) := by
  have port : ((s.setPort p (s.ports[p].raised u)).hand (.lostMark p false)).ports[p] = s.ports[p].raised u :=
    State.setPort_port _
  rw [State.goodFrame_of_sixteenth ht fifteen empty,
    State.deskByte_of_idle (by rw [port]; rfl) (by rw [port]; exact idle), port,
    State.hand, State.setRequests_setPort, State.setPort_setPort]
  rfl

/-! ### Lost frames of a port that is not UP (R128, R129) -/

theorem State.lostFrame_of_down (hd : s.ports[p].link = .down) (held : Bool) :
    s.lostFrame p held = s.setPort p { s.ports[p] with goodRun := 0, badRun := 0 } := by
  unfold State.lostFrame
  simp only [hd]

theorem State.lostFrame_of_training (ht : s.ports[p].link = .training) (short : s.ports[p].badRun < 7)
    (held : Bool) : s.lostFrame p held =
    s.setPort p { s.ports[p] with goodRun := 0, badRun := s.ports[p].badRun + 1 } := by
  have below : s.ports[p].badRun + 1 < Config.badRunDown := Nat.succ_lt_succ short
  unfold State.lostFrame
  simp only [ht, if_pos below]

/-- The eighth lost frame in a row ends the training. -/
theorem State.lostFrame_ends_training (ht : s.ports[p].link = .training) (seventh : s.ports[p].badRun = 7)
    (held : Bool) : s.lostFrame p held =
    s.setPort p { s.ports[p] with link := .down, goodRun := 0, badRun := 0, assembler := [] } := by
  have reached : ¬ s.ports[p].badRun + 1 < Config.badRunDown := by rw [seventh]; decide
  unfold State.lostFrame
  simp only [ht, if_neg reached]

/-! ### One port replaced -/

theorem State.setPort_get (x : StationPort) (q : Port) :
    (s.setPort p x).ports[q] = if q = p then x else s.ports[q] := by
  by_cases same : q = p
  · rw [if_pos same, same]
    exact State.setPort_port x
  · rw [if_neg same]
    exact put_get_other s.ports (Ne.symm same) x

end

/-- Settles O15. -/
theorem linkReportsOfPortsNotUp : Obligations.LinkReportsOfPortsNotUp := by
  refine fun s p => ⟨fun r hk => exec_linkReport_unused hk r, fun hk b u good => ?_, fun hk r lost => ?_,
    fun x => ⟨rfl, fun q => State.setPort_get x q⟩⟩
  · rw [exec_linkReport_good hk good]
    refine ⟨fun hd => ?_, fun ht short => ?_, fun ht fifteen empty idle => ?_⟩
    · rw [State.goodFrame_of_down hd]
    · rw [State.goodFrame_of_training ht short]
    · rw [State.goodFrame_raises ht fifteen empty idle]
      rfl
  · obtain ⟨held, taken⟩ := exec_linkReport_lost hk lost
    rw [taken]
    refine ⟨fun hd => ?_, fun ht short => ?_, fun ht seventh => ?_⟩
    · rw [State.lostFrame_of_down hd]
    · rw [State.lostFrame_of_training ht short]
    · rw [State.lostFrame_ends_training ht seventh]

end Sys2Proof.Machine
end

section
/-!
PROOFS, the trunk line: frame sync outside LOCKED, and the frames that LOCKED holds or takes (R143 to R147, R150,
R152, R155, R157): O11, O12, O13.
-/

namespace Sys2Proof.Machine

section
variable {s : State} {bytes : List Byte} {f : TrunkFrame}

/-! ### What an arrival leads to (R143, R144) -/

theorem exec_trunkArrival_noSync (h : Arrival.judge bytes = .noSync) : exec (.trunkArrival bytes) s = .next s := by
  simp only [exec, execTrunkArrival, h]

theorem exec_trunkArrival_hunt (h : Arrival.judge bytes ≠ .noSync) (hs : s.trunk.sync = .hunt) :
    exec (.trunkArrival bytes) s = .next (s.setTrunk { s.trunk with sync := .verify, goodRun := 0 }) := by
  cases hj : Arrival.judge bytes with
  | noSync => exact absurd hj h
  | bad f => simp only [exec, execTrunkArrival, hj, hs]
  | good f => simp only [exec, execTrunkArrival, hj, hs]

theorem exec_trunkArrival_verify_good (h : Arrival.judge bytes = .good f) (hs : s.trunk.sync = .verify) :
    exec (.trunkArrival bytes) s = .next (s.setTrunk s.trunk.verified) := by
  simp only [exec, execTrunkArrival, h, hs]

theorem exec_trunkArrival_verify_bad (h : Arrival.judge bytes = .bad f) (hs : s.trunk.sync = .verify) :
    exec (.trunkArrival bytes) s = .next (s.setTrunk s.trunk.toHunt) := by
  simp only [exec, execTrunkArrival, h, hs]

theorem exec_trunkArrival_locked_good (h : Arrival.judge bytes = .good f) (hs : s.trunk.sync = .locked) :
    exec (.trunkArrival bytes) s = .next (s.takeTrunkFrame f) := by
  simp only [exec, execTrunkArrival, h, hs]

theorem exec_trunkArrival_locked_bad (h : Arrival.judge bytes = .bad f) (hs : s.trunk.sync = .locked) :
    exec (.trunkArrival bytes) s = .next (s.loseFrame (.heldBad f.number f.upstreamLost f.lanes)) := by
  simp only [exec, execTrunkArrival, h, hs]

/-! ### What a missing frame leads to (R143, R144) -/

theorem exec_missingFrame_hunt (hs : s.trunk.sync = .hunt) : exec .missingFrame s = .next s := by
  simp only [exec, execMissingFrame, hs]

theorem exec_missingFrame_verify (hs : s.trunk.sync = .verify) :
    exec .missingFrame s = .next (s.setTrunk s.trunk.toHunt) := by
  simp only [exec, execMissingFrame, hs]

theorem exec_missingFrame_locked (hs : s.trunk.sync = .locked) :
    exec .missingFrame s = .next (s.loseFrame .heldMissing) := by
  simp only [exec, execMissingFrame, hs]

end

/-! ### The good run in VERIFY (R144, R147) -/

theorem TrunkPort.verified_of_lt {t : TrunkPort} (h : t.goodRun < 3) :
    t.verified = { t with goodRun := t.goodRun + 1 } := if_pos (by omega)

theorem TrunkPort.verified_of_fourth {t : TrunkPort} (h : t.goodRun = 3) :
    t.verified = { t with goodRun := 4, sync := .locked, timing := .trunk } := if_neg (by omega)

/-- Settles O11: each judgement of the arrival against the sync state. -/
theorem frameSyncOutsideLocked : Obligations.FrameSyncOutsideLocked := by
  refine fun s bytes => ⟨exec_trunkArrival_noSync, exec_trunkArrival_hunt, fun f good hv => ?_,
    fun f => exec_trunkArrival_verify_bad, exec_missingFrame_verify, exec_missingFrame_hunt⟩
  rw [exec_trunkArrival_verify_good good hv]
  exact ⟨fun few => by rw [TrunkPort.verified_of_lt few], fun third => by rw [TrunkPort.verified_of_fourth third]⟩

/-! ### A frame lost in LOCKED (R145, R146) -/

theorem State.loseFrame_of_held {s : State} (h : s.trunk.badRun ≤ 1) (held : Period) : s.loseFrame held =
    (s.setTrunk { s.trunk with
      badRun := s.trunk.badRun + 1, presented := s.trunk.lastGood, period := some held }).report
        .trunkCheck .nowhere := if_pos (by omega)

theorem State.loseFrame_of_third {s : State} (h : s.trunk.badRun = 2) (held : Period) :
    s.loseFrame held = (s.setTrunk s.trunk.reinit).report .trunkSyncLoss .nowhere := if_neg (by omega)

/-- Settles O12: a bad and a missing frame are lost alike; the bad run decides between holding and reinit. -/
theorem lockedFrameLost : Obligations.LockedFrameLost := by
  intro s hl c held lost
  have taken : exec c s = .next (s.loseFrame held) := by
    rcases lost with ⟨rfl, rfl⟩ | ⟨bytes, f, rfl, bad, rfl⟩
    · exact exec_missingFrame_locked hl
    · exact exec_trunkArrival_locked_bad bad hl
  rw [taken]
  refine ⟨fun few => ?_, fun second => ?_⟩
  · rw [State.loseFrame_of_held few]
    rfl
  · rw [State.loseFrame_of_third second]
    rfl

/-! ### The cell field of a frame that is taken (R152) -/

section
variable {position : Fin 8} {cell : List Byte}

theorem cellKind_of_zero (h : (byteAt cell 0).toNat = 0) : cellKind cell = .idle := by
  simp only [cellKind, h]

theorem cellKind_of_handed (h : (byteAt cell 0).toNat = 1 ∨ (byteAt cell 0).toNat = 2) :
    cellKind cell = .command ∨ cellKind cell = .data := by
  rcases h with h | h <;> simp [cellKind, h]

theorem cellKind_of_le (h : 3 ≤ (byteAt cell 0).toNat) : cellKind cell = .other := by
  unfold cellKind
  split
  · omega
  · omega
  · omega
  · rfl

theorem readCell_of_bad (bad : cell.sum ≠ 0) : readCell position cell = .checkFailed :=
  if_neg (by simpa [sumGood] using bad)

variable (good : cell.sum = 0)
include good

theorem readCell_of_idle (h : (byteAt cell 0).toNat = 0) : readCell position cell = .use false .free := by
  simp [readCell, sumGood, good, cellKind_of_zero h]

theorem readCell_of_other (h : 3 ≤ (byteAt cell 0).toNat) : readCell position cell = .use false (.carry cell) := by
  simp [readCell, sumGood, good, cellKind_of_le h]

/-- A COMMAND or DATA cell is consumed where it is addressed to this position, and otherwise carried on, a copy being
handed over where it is addressed to position 15. -/
theorem readCell_of_addressed (h : (byteAt cell 0).toNat = 1 ∨ (byteAt cell 0).toNat = 2) :
    readCell position cell = if (byteAt cell 1).toNat = position.val then .use true .free
      else .use ((byteAt cell 1).toNat == 15) (.carry cell) := by
  have sum : sumGood cell = true := beq_iff_eq.2 good
  rw [readCell, if_pos sum]
  rcases cellKind_of_handed h with kind | kind <;> rw [kind] <;> rfl

end

/-! ### A good frame taken in LOCKED (R144, R150, R155) -/

/-- The state once the frame is taken, the outgoing cell field being as given. -/
def State.tookFrame (s : State) (f : TrunkFrame) (field : CellField) : State :=
  s.setTrunk { s.trunk with
    badRun := 0, presented := f.lanes, lastGood := f.lanes, upstreamLost := f.upstreamLost
    period := some (.taken f.number f.upstreamLost f.lanes field) }

section
variable {s : State} {f : TrunkFrame} {field : CellField}

theorem State.takeTrunkFrame_of_checkFailed (h : readCell s.trunk.position f.cell = .checkFailed) :
    s.takeTrunkFrame f = (s.tookFrame f .free).report .cellCheck .nowhere := by
  simp only [State.takeTrunkFrame, h, State.tookFrame]

theorem State.takeTrunkFrame_of_handed (h : readCell s.trunk.position f.cell = .use true field) :
    s.takeTrunkFrame f = (s.tookFrame f field).handCell f.cell := by
  simp only [State.takeTrunkFrame, h, State.tookFrame]

theorem State.takeTrunkFrame_of_passed (h : readCell s.trunk.position f.cell = .use false field) :
    s.takeTrunkFrame f = s.tookFrame f field := by
  simp only [State.takeTrunkFrame, h, State.tookFrame]

end

/-- Settles O13: what R152 reads in the cell field decides what becomes of the frame. -/
theorem lockedFrameTaken : Obligations.LockedFrameTaken := by
  intro s bytes f hl good took kind address
  rw [exec_trunkArrival_locked_good good hl]
  refine ⟨fun bad => ?_, fun sum => ⟨fun idle => ?_, fun other => ?_, fun addressed => ?_⟩⟩
  · rw [State.takeTrunkFrame_of_checkFailed (readCell_of_bad bad)]
    rfl
  · rw [State.takeTrunkFrame_of_passed (readCell_of_idle sum idle)]
    rfl
  · rw [State.takeTrunkFrame_of_passed (readCell_of_other sum other)]
    rfl
  · have read := readCell_of_addressed (position := s.trunk.position) sum addressed
    refine ⟨fun here => ?_, fun all => ?_, fun elsewhere notAll => ?_⟩
    · rw [if_pos here] at read
      rw [State.takeTrunkFrame_of_handed read]
      rfl
    · have elsewhere : address ≠ s.trunk.position.val := by omega
      rw [if_neg elsewhere, beq_iff_eq.2 all] at read
      rw [State.takeTrunkFrame_of_handed read]
      rfl
    · rw [if_neg elsewhere, beq_eq_false_iff_ne.2 notAll] at read
      rw [State.takeTrunkFrame_of_passed read]
      rfl

end Sys2Proof.Machine
end

section
/-!
PROOFS, the outgoing trunk frame of a frame start (R149, R151, R153, R158): O8.
-/

namespace Sys2Proof.Machine

/-! ### The arbiter of a free cell field (R153, R158) -/

/-- The cell that fills a free field, and the reply and notice queues that it leaves. -/
def State.freeCell (s : State) : List Byte × List Reply × List Notice :=
  match s.management.replies, s.management.notices with
  | r :: rs, ns => (r.cell s.trunk.position s.management.credit, rs, ns)
  | [], n :: ns => (n.cell s.trunk.position s.management.credit, [], ns)
  | [], [] => (idleCell, [], [])

/-- Filling the field is what the arbiter says. -/
theorem State.fillCell_freeCell (s : State) : s.fillCell.1 = s.freeCell.1
    ∧ s.fillCell.2.management.replies = s.freeCell.2.1 ∧ s.fillCell.2.management.notices = s.freeCell.2.2 := by
  unfold State.freeCell
  rcases s.fillCell_cases with ⟨r, rs, hr, h⟩ | ⟨n, ns, hr, hn, h⟩ | ⟨hr, hn, h⟩
  · simp [h, hr]
  · simp [h, hr, hn]
  · simp [h, hr, hn]

/-- The arbiter sees the two queues, the commands held and the ring position alone. -/
theorem State.freeCell_congr {s t : State} (hr : t.management.replies = s.management.replies)
    (hn : t.management.notices = s.management.notices) (hc : t.management.commands = s.management.commands)
    (hp : t.trunk.position = s.trunk.position) : t.freeCell = s.freeCell := by
  simp only [State.freeCell, Management.credit, hr, hn, hc, hp]

/-! ### The frame sent (R149, R151) -/

/-- `t` has sent the frame, and its counter takes the number after it. -/
def State.HasSent (t : State) (f : TrunkFrame) (markedBad : Bool) : Prop :=
  t.trunk.txFrame = some (f.write markedBad) ∧ t.trunk.frameNumber = f.number + 1

/-- The reply and notice queues of `t` are those given. -/
def State.HasQueues (t : State) (replies : List Reply) (notices : List Notice) : Prop :=
  t.management.replies = replies ∧ t.management.notices = notices

section
variable (u : State) (m : MixInput)

/-- A frame whose cell field is not free leaves the queues. -/
theorem State.sendFrame_sends (f : TrunkFrame) (bad : Bool) : (u.sendFrame f bad).HasSent f bad
    ∧ (u.sendFrame f bad).HasQueues u.management.replies u.management.notices := ⟨⟨rfl, rfl⟩, rfl, rfl⟩

/-- A frame whose cell field is free carries the arbiter's cell. -/
theorem State.sendFrame_fills (number : Byte) (lost : Bool) (lanes : Vector Sample 48) :
    let t := u.fillCell.2.sendFrame ⟨number, lost, lanes, u.fillCell.1⟩ false
    t.HasSent ⟨number, lost, lanes, u.freeCell.1⟩ false ∧ t.HasQueues u.freeCell.2.1 u.freeCell.2.2 := by
  obtain ⟨cell, replies, notices⟩ := u.fillCell_freeCell
  rw [← cell]
  exact ⟨⟨rfl, rfl⟩, replies, notices⟩

/-! ### What each kind of period sends (R149) -/

theorem State.outgoing_taken_free {number : Byte} {lost : Bool} {pass : Vector Sample 48}
    (h : u.trunk.period = some (.taken number lost pass .free)) :
    (u.outgoing m).HasSent ⟨number, lost, u.outLanes m pass, u.freeCell.1⟩ false
      ∧ (u.outgoing m).HasQueues u.freeCell.2.1 u.freeCell.2.2 := by
  simp only [State.outgoing, h]
  exact u.sendFrame_fills ..

theorem State.outgoing_taken_carry {number : Byte} {lost : Bool} {pass : Vector Sample 48} {cell : List Byte}
    (h : u.trunk.period = some (.taken number lost pass (.carry cell))) :
    (u.outgoing m).HasSent ⟨number, lost, u.outLanes m pass, cell⟩ false
      ∧ (u.outgoing m).HasQueues u.management.replies u.management.notices := by
  simp only [State.outgoing, h]
  exact u.sendFrame_sends ..

theorem State.outgoing_heldBad {number : Byte} {lost : Bool} {pass : Vector Sample 48}
    (h : u.trunk.period = some (.heldBad number lost pass)) :
    (u.outgoing m).HasSent ⟨number, lost, u.outLanes m pass, idleCell⟩ true
      ∧ (u.outgoing m).HasQueues u.management.replies u.management.notices := by
  simp only [State.outgoing, h]
  exact u.sendFrame_sends ..

theorem State.outgoing_silent (h : u.trunk.period = some .heldMissing ∨ u.trunk.period = some .reinit) :
    (u.outgoing m).HasSent ⟨u.trunk.frameNumber, true, u.outLanes m (Vector.replicate 48 0), idleCell⟩ true
      ∧ (u.outgoing m).HasQueues u.management.replies u.management.notices := by
  rcases h with h | h
  all_goals
    simp only [State.outgoing, h]
    exact u.sendFrame_sends ..

theorem State.outgoing_local (h : u.trunk.period = none) :
    (u.outgoing m).HasSent ⟨u.trunk.frameNumber, true, u.outLanes m (Vector.replicate 48 0), u.freeCell.1⟩ false
      ∧ (u.outgoing m).HasQueues u.freeCell.2.1 u.freeCell.2.2 := by
  simp only [State.outgoing, h]
  exact u.sendFrame_fills ..

end

/-! ### The state that sends it -/

/-- The frame start up to its downlinks, which comes before the outgoing frame (R22). -/
def State.beforeOutgoing (s : State) : State := s.tickClock.mix.sendDownlinks s.frameInput

section
variable (s : State)

theorem State.frameStart_eq_outgoing : s.frameStart = s.beforeOutgoing.outgoing s.frameInput := rfl

theorem State.beforeOutgoing_trunk :
    s.beforeOutgoing.trunk = { s.trunk with clock := s.trunk.clock + 1 } := by
  simp [State.beforeOutgoing, State.tickClock]

theorem State.beforeOutgoing_management : s.beforeOutgoing.management =
    { s.management with execution := s.management.execution.tick (s.trunk.clock + 1) } := by
  simp [State.beforeOutgoing, State.tickClock]

/-- What comes before the outgoing frame leaves all that the frame is made of. -/
theorem State.beforeOutgoing_freeCell : s.beforeOutgoing.freeCell = s.freeCell := by
  apply State.freeCell_congr <;> simp only [s.beforeOutgoing_trunk, s.beforeOutgoing_management]

theorem State.beforeOutgoing_outLanes (m : MixInput) (pass : Vector Sample 48) :
    s.beforeOutgoing.outLanes m pass = s.outLanes m pass := by
  simp only [State.outLanes, s.beforeOutgoing_trunk]

end

/-- Settles O8: by the kind of the period. -/
theorem outgoingTrunkFrame : Obligations.OutgoingTrunkFrame := by
  intro s due
  refine ⟨s.frameStart, s.frameInput, exec_frameStart_of_due due, s.frameInput_mixes, ?_⟩
  have free := s.beforeOutgoing_freeCell
  have lanes := s.beforeOutgoing_outLanes s.frameInput
  have trunk := s.beforeOutgoing_trunk
  have management := s.beforeOutgoing_management
  have period : s.beforeOutgoing.trunk.period = s.trunk.period := by rw [trunk]
  cases hp : s.trunk.period with
  | none =>
    have sent := s.beforeOutgoing.outgoing_local s.frameInput (period.trans hp)
    rw [free, lanes, trunk] at sent
    exact sent
  | some x =>
    cases x with
    | taken number lost pass field =>
      cases field with
      | free =>
        have sent := s.beforeOutgoing.outgoing_taken_free s.frameInput (period.trans hp)
        rw [free, lanes] at sent
        exact sent
      | carry cell =>
        have sent := s.beforeOutgoing.outgoing_taken_carry s.frameInput (period.trans hp)
        rw [lanes, management] at sent
        exact sent
    | heldBad number lost pass =>
      have sent := s.beforeOutgoing.outgoing_heldBad s.frameInput (period.trans hp)
      rw [lanes, management] at sent
      exact sent
    | heldMissing =>
      have sent := s.beforeOutgoing.outgoing_silent s.frameInput (.inl (period.trans hp))
      rw [lanes, management, trunk] at sent
      exact sent
    | reinit =>
      have sent := s.beforeOutgoing.outgoing_silent s.frameInput (.inr (period.trans hp))
      rw [lanes, management, trunk] at sent
      exact sent

end Sys2Proof.Machine
end

section
/-!
PROOFS, the trunk frame in bytes and its CRC (12.1, R143, R149, R191): O9.
-/

namespace Sys2Proof.Machine

/-! ### Words among bytes (R191) -/

theorem length_bytesOf16 (x : BitVec 16) : (bytesOf16 x).length = 2 := rfl

theorem byteAt_append (front back : List Byte) (i : Nat) :
    byteAt (front ++ back) (front.length + i) = byteAt back i := by
  simp only [byteAt, List.getD_eq_getElem?_getD, List.getElem?_append_right (Nat.le_add_right _ _),
    Nat.add_sub_cancel_left]

/-- Only the bytes from a place on matter to the word read there. -/
theorem wordAt_append (front back : List Byte) (i : Nat) :
    wordAt (front ++ back) (front.length + i) = wordAt back i := by
  rw [wordAt, wordAt, Nat.add_assoc, byteAt_append, byteAt_append]

/-- A word that was written is read back. -/
theorem wordAt_bytesOf16 (x : BitVec 16) (back : List Byte) : wordAt (bytesOf16 x ++ back) 0 = x :=
  (BitVec.extractLsb'_append_extractLsb' : x.extractLsb' 8 8 ++ x.extractLsb' 0 8 = x)

/-- Words one behind the other are read back, each at twice its number. -/
theorem wordAt_flatten (back : List Byte) (xs : List (BitVec 16)) {i : Nat} (h : i < xs.length) :
    wordAt ((xs.map bytesOf16).flatten ++ back) (2 * i) = xs[i] := by
  induction xs generalizing i with
  | nil => cases h
  | cons x xs ih =>
    rw [List.map_cons, List.flatten_cons, List.append_assoc]
    cases i with
    | zero => exact wordAt_bytesOf16 x _
    | succ i =>
      rw [show 2 * (i + 1) = (bytesOf16 x).length + 2 * i by rw [length_bytesOf16]; omega, wordAt_append]
      exact ih (Nat.lt_of_succ_lt_succ h)

theorem length_flatten_bytesOf16 (xs : List (BitVec 16)) : (xs.map bytesOf16).flatten.length = 2 * xs.length := by
  induction xs with
  | nil => rfl
  | cons x xs ih =>
    rw [List.map_cons, List.flatten_cons, List.length_append, ih, length_bytesOf16, List.length_cons]
    omega

/-! ### The bytes of a frame (12.1) -/

/-- The sync word, the frame number and the flag. -/
def TrunkFrame.head (f : TrunkFrame) : List Byte := [0xE2, 0x5B, f.number, byte (bit f.upstreamLost)]

/-- The lanes, high byte first. -/
def TrunkFrame.laneBytes (f : TrunkFrame) : List Byte := (f.lanes.toList.map bytesOf16).flatten

section
variable (f : TrunkFrame)

theorem TrunkFrame.body_eq : f.body = f.head ++ f.laneBytes ++ f.cell := rfl

theorem TrunkFrame.length_laneBytes : f.laneBytes.length = 96 := by
  rw [TrunkFrame.laneBytes, length_flatten_bytesOf16, Vector.length_toList]

theorem TrunkFrame.length_beforeCell : (f.head ++ f.laneBytes).length = 100 := by
  rw [List.length_append, f.length_laneBytes]
  rfl

theorem TrunkFrame.lane_read (back : List Byte) (n : Lane) :
    wordAt (f.head ++ (f.laneBytes ++ back)) (4 + 2 * n.val) = f.lanes[n] := by
  have lane : n.val < f.lanes.toList.length := by rw [Vector.length_toList]; exact n.isLt
  exact (wordAt_append f.head _ _).trans ((wordAt_flatten back f.lanes.toList lane).trans (Vector.getElem_toList lane))

variable {f} (hcell : f.cell.length = 16)
include hcell

theorem TrunkFrame.length_body : f.body.length = 116 := by
  rw [f.body_eq, List.length_append, f.length_beforeCell, hcell]

/-- Whatever stands behind them, the fields are read back from the bytes before the check. -/
theorem TrunkFrame.read_body (check : List Byte) : TrunkFrame.read (f.body ++ check) = f := by
  have flag : (byte (bit f.upstreamLost)).getLsbD 0 = f.upstreamLost := by
    cases f.upstreamLost <;> rfl
  have lanes : (Vector.ofFn fun n : Lane => wordAt (f.body ++ check) (4 + 2 * n.val)) = f.lanes := by
    refine table_ext fun n => ?_
    rw [f.body_eq, List.append_assoc, List.append_assoc]
    simpa using f.lane_read (f.cell ++ check) n
  have cell : ((f.body ++ check).drop 100).take 16 = f.cell := by
    rw [f.body_eq, List.append_assoc, List.drop_left' f.length_beforeCell, List.take_left' hcell]
  calc TrunkFrame.read (f.body ++ check)
      = ⟨f.number, (byte (bit f.upstreamLost)).getLsbD 0,
          Vector.ofFn fun n : Lane => wordAt (f.body ++ check) (4 + 2 * n.val),
          ((f.body ++ check).drop 100).take 16⟩ := rfl
    _ = f := by rw [flag, lanes, cell]

/-- The frame with any check: a good one where the check is the CRC of the bytes before it (R143, R191). -/
theorem TrunkFrame.judge_body (crc : BitVec 16) : Arrival.judge (f.body ++ bytesOf16 crc) =
    if crc = crc16 f.body then .good f else .bad f := by
  have length := TrunkFrame.length_body hcell
  have sync : (f.body ++ bytesOf16 crc).take 2 = [0xE2, 0x5B] := rfl
  have check : wordAt (f.body ++ bytesOf16 crc) 116 = crc := by
    rw [← length]
    simpa using (wordAt_append f.body (bytesOf16 crc) 0).trans (wordAt_bytesOf16 crc [])
  rw [Arrival.judge, if_pos sync, TrunkFrame.read_body hcell, check, List.take_left' length]
  refine if_congr (and_iff_right ?_) rfl rfl
  rw [List.length_append, length]
  rfl

theorem TrunkFrame.length_write (bad : Bool) : (f.write bad).length = 118 := by
  rw [TrunkFrame.write, List.length_append, TrunkFrame.length_body hcell, length_bytesOf16]

/-- A frame sent is read back; marking its check bad makes it a bad frame (R149). -/
theorem TrunkFrame.judge_write (bad : Bool) : Arrival.judge (f.write bad) = if bad then .bad f else .good f := by
  have inverted : ~~~(crc16 f.body) ≠ crc16 f.body := by simp
  rw [TrunkFrame.write, TrunkFrame.judge_body hcell]
  cases bad with
  | false => exact if_pos rfl
  | true => exact if_neg inverted

end

/-! ### The CRC (R191) -/

/-- The CRC goes on byte by byte, and in a byte bit by bit, the most significant first. -/
theorem crc16_append_byte (bs : List Byte) (b : Byte) :
    crc16 (bs ++ [b]) = Nat.iterate crcBit 8 (crc16 bs ^^^ (b ++ (0 : Byte))) := by
  rw [crc16, List.foldl_append]
  rfl

theorem crcBit_eq (x : BitVec 16) :
    crcBit x = if x.getLsbD 15 then (x <<< 1) ^^^ 0x1021 else x <<< 1 := by
  rw [crcBit, BitVec.msb_eq_getLsbD_last]

/-- A byte with eight bits 0 behind it. -/
theorem append_zero_byte (b : Byte) : b ++ (0 : Byte) = b.setWidth 16 <<< 8 := by
  refine BitVec.eq_of_toNat_eq ?_
  rw [append_bytes, BitVec.toNat_shiftLeft, BitVec.toNat_setWidth_of_le (by decide), BitVec.toNat_ofNat,
    Nat.shiftLeft_eq]
  exact congrArg (· % 2 ^ 16) (Nat.mul_comm ..)

/-! ### How bytes are judged (R143) -/

section
variable {bytes : List Byte} (sync : bytes.take 2 = [0xE2, 0x5B])

theorem Arrival.judge_of_no_sync (h : bytes.take 2 ≠ [0xE2, 0x5B]) : Arrival.judge bytes = .noSync := if_neg h

include sync

theorem Arrival.judge_good (length : bytes.length = 118) (agrees : wordAt bytes 116 = crc16 (bytes.take 116)) :
    Arrival.judge bytes = .good (.read bytes) := by
  rw [Arrival.judge, if_pos sync, if_pos ⟨length, agrees⟩]

theorem Arrival.judge_bad (h : ¬ (bytes.length = 118 ∧ wordAt bytes 116 = crc16 (bytes.take 116))) :
    Arrival.judge bytes = .bad (.read bytes) := by
  rw [Arrival.judge, if_pos sync]
  exact if_neg h

end

theorem TrunkFrame.read_eq (bytes : List Byte) : TrunkFrame.read bytes = ⟨byteAt bytes 2, (byteAt bytes 3).getLsbD 0,
    Vector.ofFn fun n => byteAt bytes (4 + 2 * n.val) ++ byteAt bytes (5 + 2 * n.val), (bytes.drop 100).take 16⟩ := by
  have second (n : Nat) : 5 + 2 * n = 4 + 2 * n + 1 := by omega
  simp only [second]
  rfl

/-- Settles O9. -/
theorem trunkFramesAgree : Obligations.TrunkFramesAgree := by
  refine ⟨fun f hcell => ⟨TrunkFrame.length_write hcell false, TrunkFrame.judge_write hcell false,
      TrunkFrame.length_write hcell true, TrunkFrame.judge_write hcell true⟩, fun f bad => ?_, rfl, fun bs b => ?_,
    fun bytes => ?_⟩
  · have flag : byte (bit f.upstreamLost) = if f.upstreamLost then 1 else 0 := by
      cases f.upstreamLost <;> rfl
    intro body
    have same : f.body = body := by rw [f.body_eq, TrunkFrame.head, flag]; rfl
    rw [TrunkFrame.write, same]
  · intro turn
    have bit : crcBit = turn := funext crcBit_eq
    rw [crc16_append_byte, append_zero_byte, bit]
  · intro fields agrees
    have read : TrunkFrame.read bytes = fields := TrunkFrame.read_eq bytes
    rw [← read]
    exact ⟨Arrival.judge_of_no_sync, fun sync => ⟨Arrival.judge_good sync,
      fun _ differs => Arrival.judge_bad sync fun both => differs both.2,
      fun length => ⟨_, Arrival.judge_bad sync fun both => length both.1⟩⟩⟩

end Sys2Proof.Machine
end

section
/-!
PROOFS, the cells that the management engine takes from the trunk port (R157, R159, R167, R170): O14.
-/

namespace Sys2Proof.Machine

section
variable {s : State} {cell : List Byte}

/-! ### The kind of a cell handed over (R157) -/

theorem State.handCell_of_command (h : (byteAt cell 0).toNat = 1) : s.handCell cell = s.admitCommand (.ofCell cell) := by
  have kind : cellKind cell = .command := by simp only [cellKind, h]
  rw [State.handCell, kind]

theorem State.handCell_of_data (h : (byteAt cell 0).toNat = 2) : s.handCell cell = s.data (.ofCell cell) := by
  have kind : cellKind cell = .data := by simp only [cellKind, h]
  rw [State.handCell, kind]

/-! ### Replies that no command reserved (R159, R170) -/

theorem State.reply_of_room (h : s.management.repliesTaken < 8) (r : Reply) :
    s.reply r = s.setManagement { s.management with replies := s.management.replies ++ [r] } := by
  rcases s.reply_cases r with ⟨-, e⟩ | ⟨full, -⟩
  · exact e
  · omega

theorem State.reply_of_full (h : 8 ≤ s.management.repliesTaken) (r : Reply) : s.reply r = s := by
  rcases s.reply_cases r with ⟨room, -⟩ | ⟨-, e⟩
  · omega
  · exact e

/-! ### Admission and DATA cells (R159, R167, R170) -/

theorem State.admitCommand_of_room (h : s.management.commands.length < 4) (c : Command) :
    s.admitCommand c = s.setManagement { s.management with commands := s.management.commands ++ [c] } := if_pos h

theorem State.admitCommand_of_full (h : 4 ≤ s.management.commands.length) (c : Command) :
    s.admitCommand c = s.reply ⟨c.tag, .full, false, parameters [c.code]⟩ := if_neg (Nat.not_lt.2 h)

theorem State.data_of_expected {l : Load} (hl : s.management.execution = .load l) (he : l.expected ≠ 0) (c : Command) :
    s.data c = s.execute (.load { l with
      expected := l.expected - 1
      waiting := l.waiting ++ [Record.decode c.params]
      deadline := ⟨s.trunk.clock + 1600, false⟩ }) := by
  rw [State.data, hl]
  exact if_neg he

/-- A DATA cell that no open load expects is refused (R170). -/
theorem State.data_of_unexpected (h : ∀ l, s.management.execution = .load l → l.expected = 0) (c : Command) :
    s.data c = s.reply ⟨c.tag, .noLoad, false, parameters []⟩ := by
  unfold State.data
  split
  · exact if_pos (h _ ‹_›)
  all_goals rfl

end

/-- Settles O14: the two kinds of cells, each by what the engine has room for. -/
theorem cellsHandedOver : Obligations.CellsHandedOver := by
  intro s cell tag code params taken replied
  refine ⟨fun command => ?_, fun data => ?_⟩
  · rw [State.handCell_of_command command]
    exact ⟨fun room => State.admitCommand_of_room room _,
      fun full room => (State.admitCommand_of_full full _).trans (State.reply_of_room room _),
      fun full none => (State.admitCommand_of_full full _).trans (State.reply_of_full none _)⟩
  · rw [State.handCell_of_data data]
    refine ⟨fun l hl expected => State.data_of_expected hl expected _, fun unexpected => ?_⟩
    rw [State.data_of_unexpected unexpected]
    exact ⟨fun room => State.reply_of_room room _, fun none => State.reply_of_full none _⟩

end Sys2Proof.Machine
end

section
/-!
PROOFS, the encodings of chapter 12 in bytes (R191, 12.2 to 12.6): O10.
-/

namespace Sys2Proof.Machine

/-! ### Values of several bytes (R191) -/

theorem toNat_byte (n : Nat) : (byte n).toNat = n % 256 := BitVec.toNat_ofNat n 8

theorem byteAt_eq (bs : List Byte) (i : Nat) : byteAt bs i = (bs[i]?).getD 0 := List.getD_eq_getElem?_getD

theorem toNat_append {m n : Nat} (x : BitVec m) (y : BitVec n) : (x ++ y).toNat = 2 ^ n * x.toNat + y.toNat := by
  rw [BitVec.toNat_append, ← Nat.shiftLeft_add_eq_or_of_lt y.isLt, Nat.shiftLeft_eq, Nat.mul_comm]

theorem toNat_wordAt (bs : List Byte) (i : Nat) :
    (wordAt bs i).toNat = 256 * (byteAt bs i).toNat + (byteAt bs (i + 1)).toNat := toNat_append _ _

theorem toNat_word24At (bs : List Byte) (i : Nat) : (word24At bs i).toNat =
    65536 * (byteAt bs i).toNat + 256 * (byteAt bs (i + 1)).toNat + (byteAt bs (i + 2)).toNat := by
  rw [word24At, toNat_append, toNat_append]
  omega

/-- Eight bits of a value, from bit `8 * k` up, are its digit to base 256. -/
theorem extractLsb'_eq_byte {n : Nat} (x : BitVec n) (k : Nat) : x.extractLsb' k 8 = byte (x.toNat / 2 ^ k) := by
  apply BitVec.eq_of_toNat_eq
  rw [BitVec.extractLsb'_toNat, Nat.shiftRight_eq_div_pow, toNat_byte]

theorem bytesOf16_eq (x : BitVec 16) : bytesOf16 x = [byte (x.toNat / 256), byte x.toNat] := by
  simp [bytesOf16, extractLsb'_eq_byte]

theorem bytesOf24_eq (x : BitVec 24) :
    bytesOf24 x = [byte (x.toNat / 65536), byte (x.toNat / 256), byte x.toNat] := by
  simp [bytesOf24, extractLsb'_eq_byte]

theorem bytesOf32_eq (x : BitVec 32) : bytesOf32 x =
    [byte (x.toNat / 16777216), byte (x.toNat / 65536), byte (x.toNat / 256), byte x.toNat] := by
  simp [bytesOf32, extractLsb'_eq_byte]

theorem byte_eq_iff {m n : Nat} : byte m = byte n ↔ m % 256 = n % 256 := by
  rw [← BitVec.toNat_inj, toNat_byte, toNat_byte]

theorem bytes16_eq (n : Nat) : bytes16 n = [byte (n / 256), byte n] := by
  rw [bytes16, bytesOf16_eq, BitVec.toNat_ofNat]
  have high : byte (n % 2 ^ 16 / 256) = byte (n / 256) := byte_eq_iff.2 (by omega)
  have low : byte (n % 2 ^ 16) = byte n := byte_eq_iff.2 (by omega)
  rw [high, low]

/-! ### Parameter bytes (12.5) -/

theorem length_parameters (bs : List Byte) : (parameters bs).length = 10 := by
  simp [parameters]

/-- Behind the bytes that are given a cell carries 0, which is what a byte that is not there reads. -/
theorem byteAt_parameters (bs : List Byte) {i : Nat} (h : i < 10) : byteAt (parameters bs) i = byteAt bs i := by
  rw [byteAt_eq, byteAt_eq, parameters, List.getElem?_take_of_lt h]
  by_cases given : i < bs.length
  · rw [List.getElem?_append_left given]
  · rw [List.getElem?_append_right (by omega), List.getElem?_replicate, List.getElem?_eq_none (by omega)]
    split <;> rfl

/-! ### Endpoints (12.4) -/

theorem Endpoint.decode_encode (e : Endpoint) : Endpoint.decode e.encode = some e := by
  rw [Endpoint.decode_eq]
  cases e with
  | port p =>
    have hp := p.isLt
    have : (Endpoint.port p).encode.toNat = p.val := by rw [Endpoint.encode, toNat_byte]; omega
    rw [this, if_pos (by omega), index?_of_eq (i := p) (by omega)]
    rfl
  | lane n =>
    have hn := n.isLt
    have : (Endpoint.lane n).encode.toNat = 64 + n.val := by rw [Endpoint.encode, toNat_byte]; omega
    rw [this, if_neg (by omega), if_pos (by omega), index?_of_eq (i := n) (by omega)]
    rfl
  | channel c =>
    have hc := c.isLt
    have : (Endpoint.channel c).encode.toNat = 128 + c.val := by rw [Endpoint.encode, toNat_byte]; omega
    rw [this, if_neg (by omega), if_neg (by omega), if_pos (by omega), index?_of_eq (i := c) (by omega)]
    rfl

theorem Endpoint.encode_of_decode {b : Byte} {e : Endpoint} (h : Endpoint.decode b = some e) : e.encode = b := by
  rw [Endpoint.decode_eq] at h
  have number {n : Nat} (hn : n = b.toNat) : byte n = b := by rw [hn, byte, BitVec.ofNat_toNat, BitVec.setWidth_eq]
  split at h
  · obtain ⟨p, hp, rfl⟩ := Option.map_eq_some_iff.1 h
    rw [index?_eq_some] at hp
    exact number (by omega)
  · split at h
    · obtain ⟨n, hn, rfl⟩ := Option.map_eq_some_iff.1 h
      rw [index?_eq_some] at hn
      exact number (by omega)
    · split at h
      · obtain ⟨c, hc, rfl⟩ := Option.map_eq_some_iff.1 h
        rw [index?_eq_some] at hc
        exact number (by omega)
      · cases h

/-- A byte is no endpoint exactly when no endpoint has it. -/
theorem Endpoint.decode_eq_none (b : Byte) : Endpoint.decode b = none ↔ ∀ e : Endpoint, e.encode ≠ b := by
  refine ⟨fun none e he => ?_, fun others => ?_⟩
  · rw [← he, e.decode_encode] at none
    cases none
  · cases h : Endpoint.decode b with
    | none => rfl
    | some e => exact absurd (Endpoint.encode_of_decode h) (others e)

/-! ### Directory records (12.5) -/

theorem toNat_extractLsb' {n : Nat} (x : BitVec n) (k l : Nat) :
    (x.extractLsb' k l).toNat = x.toNat / 2 ^ k % 2 ^ l := by
  rw [BitVec.extractLsb'_toNat, Nat.shiftRight_eq_div_pow]

/-- The fields of a record in P0 to P8, each as a number. -/
theorem Record.decode_fields (ps : List Byte) :
    (Record.decode ps).valid = decide (128 ≤ (byteAt ps 0).toNat)
      ∧ (Record.decode ps).tagCue = decide ((byteAt ps 0).toNat / 64 % 2 = 1)
      ∧ (Record.decode ps).mode.toNat = (byteAt ps 0).toNat / 16 % 4
      ∧ (Record.decode ps).cls.toNat = (byteAt ps 0).toNat % 8
      ∧ (Record.decode ps).tagIndex.toNat = (byteAt ps 1).toNat / 8
      ∧ (Record.decode ps).tagKey.toNat = (byteAt ps 1).toNat % 8 := by
  have first : (byteAt ps 0).toNat < 256 := (byteAt ps 0).isLt
  have second : (byteAt ps 1).toNat < 256 := (byteAt ps 1).isLt
  refine ⟨?_, Nat.testBit_eq_decide_div_mod_eq, toNat_extractLsb' _ 4 2, (toNat_extractLsb' _ 0 3).trans (by omega),
    (toNat_extractLsb' _ 3 5).trans (by omega), (toNat_extractLsb' _ 0 3).trans (by omega)⟩
  exact Nat.testBit_eq_decide_div_mod_eq.trans (decide_eq_decide.2 (by omega))

/-- Bit 3 of P0, which no field has, is sent as 0 (R191). -/
theorem Record.encode_gap (r : Record) : (byteAt r.encode 0).getLsbD 3 = false := by
  show (BitVec.ofBool r.valid ++ BitVec.ofBool r.tagCue ++ r.mode ++ (0 : BitVec 1) ++ r.cls).getLsbD 3 = false
  rw [BitVec.getLsbD_append, BitVec.getLsbD_append]
  rfl

theorem decide_toNat_eq_one (b : Bool) : decide (b.toNat = 1) = b := by
  cases b <;> rfl

theorem Record.toNat_encode (r : Record) :
    (byteAt r.encode 0).toNat
        = 128 * r.valid.toNat + 64 * r.tagCue.toNat + 16 * r.mode.toNat + r.cls.toNat
      ∧ (byteAt r.encode 1).toNat = 8 * r.tagIndex.toNat + r.tagKey.toNat := by
  refine ⟨?_, toNat_append r.tagIndex r.tagKey⟩
  refine (toNat_append (BitVec.ofBool r.valid ++ BitVec.ofBool r.tagCue ++ r.mode ++ (0 : BitVec 1)) r.cls).trans ?_
  rw [toNat_append, toNat_append, toNat_append, BitVec.toNat_ofBool, BitVec.toNat_ofBool]
  show 2 ^ 3 * (2 ^ 1 * (2 ^ 2 * (2 ^ 1 * r.valid.toNat + r.tagCue.toNat) + r.mode.toNat) + 0) + r.cls.toNat = _
  omega

/-- Two records are equal when their fields are, as numbers. -/
theorem Record.eq_of_toNat {q r : Record} (hv : q.valid = r.valid) (ht : q.tagCue = r.tagCue)
    (hm : q.mode.toNat = r.mode.toNat) (hc : q.cls.toNat = r.cls.toNat) (hi : q.tagIndex.toNat = r.tagIndex.toNat)
    (hk : q.tagKey.toNat = r.tagKey.toNat) (hs : q.scenes = r.scenes) (hsrc : q.source = r.source)
    (hd : q.dest = r.dest) (hg : q.gain = r.gain) (hn : q.next = r.next) : q = r := by
  cases q
  cases r
  simp_all [BitVec.toNat_inj]

theorem Record.decode_encode (r : Record) : Record.decode r.encode = r := by
  obtain ⟨valid, cue, mode, cls, index, key⟩ := Record.decode_fields r.encode
  obtain ⟨first, second⟩ := r.toNat_encode
  have hm := r.mode.isLt
  have hc := r.cls.isLt
  have hi := r.tagIndex.isLt
  have hk := r.tagKey.isLt
  have hv := Bool.toNat_lt r.valid
  have ht := Bool.toNat_lt r.tagCue
  refine Record.eq_of_toNat (valid.trans ?_) (cue.trans ?_) (mode.trans (by omega)) (cls.trans (by omega))
    (index.trans (by omega)) (key.trans (by omega)) rfl rfl rfl (wordAt_bytesOf16 r.gain (bytesOf16 r.next))
    (wordAt_bytesOf16 r.next [])
  · refine .trans (decide_eq_decide.2 ?_) (decide_toNat_eq_one r.valid)
    omega
  · refine .trans (decide_eq_decide.2 ?_) (decide_toNat_eq_one r.tagCue)
    omega

/-! ### Codes (12.2, 12.4, 12.6) -/

theorem SlotClass.decode_code (c : SlotClass) : SlotClass.decode c.code = some c := by
  cases c <;> rfl

/-- The codes that are no slot class: CALL and those over 5. -/
theorem SlotClass.decode_eq_none (n : Nat) : SlotClass.decode n = none ↔ n = 3 ∨ 5 < n := by
  match n with
  | 0 | 1 | 2 | 3 | 4 | 5 => simp [SlotClass.decode]
  | n + 6 =>
    refine ⟨fun _ => ?_, fun _ => rfl⟩
    omega

/-! ### Cells (12.4, R158) -/

theorem buildCell_sum (kind : Byte) (position : Fin 8) (tag code : Byte) (params : List Byte) (credit : Nat) :
    (buildCell kind position tag code params credit).sum = 0 := withSumCheck_sum _

theorem buildCell_eq (kind : Byte) (position : Fin 8) (tag code : Byte) (params : List Byte) (credit : Nat) :
    ∃ check, buildCell kind position tag code params credit =
      [kind, byte position.val, tag, code] ++ params ++ [byte credit, check] :=
  ⟨_, List.append_assoc _ [byte credit] [_]⟩

theorem buildCell_length (kind : Byte) (position : Fin 8) (tag code : Byte) {params : List Byte}
    (h : params.length = 10) (credit : Nat) : (buildCell kind position tag code params credit).length = 16 := by
  obtain ⟨check, e⟩ := buildCell_eq kind position tag code params credit
  simp [e, h]

/-- A flag in the high bit of a byte. -/
theorem mul_bit (n : Nat) (b : Bool) : n * bit b = if b = true then n else 0 := by
  cases b
  · rfl
  · exact Nat.mul_one n

theorem NoticeBody.length_params (body : NoticeBody) : body.params.length = 10 := by
  cases body <;> exact length_parameters _

/-! ### The contents of a notice (R165, 12.5) -/

theorem NoticeBody.params_pathMiss (tag : Tag) (reason : MissReason) (place : Place) (visited ignored : Nat) :
    (NoticeBody.pathMiss tag reason place visited ignored).params =
      tag.bytes ++ [byte reason.code] ++ bytes16 place.val ++ [byte visited, byte ignored, 0, 0] := by
  cases tag <;> rfl

theorem NoticeBody.params_fault (kind : FaultKind) (loc : Location) (stamp : Stamp) :
    (NoticeBody.fault kind loc stamp).params =
      [byte (faultCode kind), if severe kind then 128 else 0] ++ locationBytes loc ++ bytesOf32 stamp ++ [0, 0] := by
  have mark : byte (128 * bit (severe kind)) = if severe kind then 128 else 0 := by
    cases severe kind <;> rfl
  rw [← mark]
  cases loc <;> rfl

theorem NoticeBody.params_cueEvent (c : CircuitIx) (state : CircuitState) (cue : Option CueNumber) (late : Bool)
    (stamp : Stamp) : (NoticeBody.cueEvent c state cue late stamp).params =
      [byte c.val, byte state.code] ++ cueBytes cue ++ [if late then 1 else 0] ++ bytesOf32 stamp ++ [0] := by
  rw [← byte_bit]
  cases cue <;> rfl

theorem Reply.cell_eq (r : Reply) (position : Fin 8) (credit : Nat) : ∃ check, r.cell position credit =
    [3, byte position.val, r.tag, byte (r.status.code + if r.clamped then 128 else 0)] ++ r.params
      ++ [byte credit, check] := by
  rw [← mul_bit]
  exact buildCell_eq _ _ _ _ _ _

/-- A cell of a notice carries its contents. -/
theorem Notice.cell_eq (n : Notice) (position : Fin 8) (credit : Nat) {code : Byte} {params : List Byte}
    (hc : byte n.body.code = code) (hp : n.body.params = params) : ∃ check, n.cell position credit =
      [4, byte position.val, n.seq, code] ++ params ++ [byte credit, check] := by
  subst hc hp
  exact buildCell_eq _ _ _ _ _ _

/-- Settles O10. -/
theorem cellEncodingsAgree : Obligations.CellEncodingsAgree := by
  refine ⟨fun bs i => ⟨byteAt_eq bs i, toNat_wordAt bs i, toNat_word24At bs i, ⟨_, rfl, withSumCheck_sum bs⟩,
      length_parameters bs, byteAt_parameters bs⟩,
    fun x y z n => ⟨bytesOf16_eq x, bytesOf24_eq y, bytesOf32_eq z, bytes16_eq n, toNat_byte n⟩,
    fun _ _ _ => ⟨rfl, rfl, rfl⟩, Endpoint.decode_eq_none, fun ps => ?_, fun r => ⟨rfl, r.encode_gap⟩,
    rfl, rfl, SlotClass.decode_eq_none, rfl, rfl, rfl, rfl, rfl, rfl, fun _ => rfl, rfl, rfl, rfl, rfl, rfl,
    Record.decode_encode, Endpoint.decode_encode, SlotClass.decode_code, PortKind.decode_code,
    fun r position credit hr => ⟨buildCell_length _ _ _ _ hr _, buildCell_sum _ _ _ _ _ _, r.cell_eq position credit⟩,
    fun n position credit => ⟨buildCell_length _ _ _ _ n.body.length_params _, buildCell_sum _ _ _ _ _ _, ?_⟩⟩
  · obtain ⟨valid, cue, mode, cls, index, key⟩ := Record.decode_fields ps
    exact ⟨valid, cue, mode, cls, index, key, rfl, rfl, rfl, toNat_wordAt ps 5, toNat_wordAt ps 7⟩
  · obtain ⟨seq, body⟩ := n
    cases body with
    | pathMiss tag reason place visited ignored =>
      have cell := Notice.cell_eq ⟨seq, _⟩ position credit rfl
        (NoticeBody.params_pathMiss tag reason place visited ignored)
      cases tag <;> cases reason <;> exact cell
    | fault kind loc stamp =>
      have cell := Notice.cell_eq ⟨seq, _⟩ position credit rfl (NoticeBody.params_fault kind loc stamp)
      cases loc <;> exact cell
    | cueEvent c state cue late stamp =>
      have cell := Notice.cell_eq ⟨seq, _⟩ position credit rfl (NoticeBody.params_cueEvent c state cue late stamp)
      cases cue <;> cases state <;> exact cell
    | slotFull slot live retired evicted =>
      cases evicted <;> exact Notice.cell_eq _ position credit rfl rfl

end Sys2Proof.Machine
end

section
/-!
PROOFS, the show data: what the show lock keeps while it is FROZEN (R178), as one value with one equation for each
operation, so that a command that does not touch it is a chain of equations.
-/

namespace Sys2Proof.Machine

/-! ### Table RAM (R50, R51, R178) -/

/-- Reads and scrubs keep the content of every place, and set poison marks but clear none. -/
def TableRam.Keeps (m n : TableRam) : Prop :=
  m.wf → n.wf ∧ ∀ i : Nat, (n.read i).content = (m.read i).content
    ∧ ((m.read i).poisoned = true → (n.read i).poisoned = true)

namespace TableRam.Keeps

variable {l m n : TableRam}

theorem refl (m : TableRam) : m.Keeps m := fun hm => ⟨hm, fun _ => ⟨rfl, id⟩⟩

theorem trans (h : l.Keeps m) (h' : m.Keeps n) : l.Keeps n := fun hl => by
  obtain ⟨hm, read⟩ := h hl
  obtain ⟨hn, read'⟩ := h' hm
  exact ⟨hn, fun i => ⟨(read' i).1.trans (read i).1, (read' i).2 ∘ (read i).2⟩⟩

/-- A place is written with the content it has, its poison mark not being cleared. -/
theorem write (m : TableRam) (i : Place) {x : RecordPlace} (hc : x.content = (m.read i.val).content)
    (hp : (m.read i.val).poisoned = true → x.poisoned = true) : m.Keeps (m.write i.val x) := fun hm => by
  refine ⟨TableRam.write_wf hm i.isLt x, fun j => ?_⟩
  rw [TableRam.read_write hm]
  split
  · rename_i hij
    exact hij ▸ ⟨hc, hp⟩
  · exact ⟨rfl, id⟩

theorem upset (m : TableRam) (u : Place × Upset) : m.Keeps (m.upset u) := write m u.1 rfl id

theorem upsetAll (m : TableRam) (us : Upsets) : m.Keeps (m.upsetAll us) := by
  unfold TableRam.upsetAll
  induction us generalizing m with
  | nil => exact refl m
  | cons u rest ih => exact (upset m u).trans (ih _)

theorem scrub (m : TableRam) (i : Place) : m.Keeps (m.scrub i) := write m i rfl id

theorem scrubs (m : TableRam) (is : List Place) : m.Keeps (is.foldl TableRam.scrub m) := by
  induction is generalizing m with
  | nil => exact refl m
  | cons i rest ih => exact (scrub m i).trans (ih _)

theorem fetch (m : TableRam) (i : Place) : m.Keeps (m.fetch i).2.1 := by
  rcases m.fetch_cases i with h | h <;> rw [h]
  · exact refl m
  · exact write m i rfl fun _ => rfl

theorem readWalk (m : TableRam) (tag : Tag) (region : Region) (scene : Scene) :
    m.Keeps (readWalk tag region scene m).2.1 :=
  readChain_keeps (P := fun n _ => m.Keeps n) (fun n i _ h => h.trans (fetch n i))
    (fun n i _ _ _ h _ _ => h.trans (fetch n i)) tag region scene _ _ (refl m)

end TableRam.Keeps

/-! ### The show data -/

/-- The lock, and what no command changes while it is FROZEN (R178). -/
structure ShowData where
  lock : LockState
  region : Region
  scene : Scene
  ram : TableRam
  entries : List CueEntry
  laneMap : Vector LaneUse 48
  ports : Vector (PortKind × Nat × Nat × Nat × Nat × Nat) 16
  circuits : Vector (List (Port × CrewLamp) × AnswerRule × Nat × Nat × Bool) 24

/-- The show data of a state. -/
def State.showData (s : State) : ShowData where
  lock := s.management.lock
  region := s.directory.region
  scene := s.directory.scene
  ram := s.directory.ram
  entries := s.cueList.entries
  laneMap := s.trunk.laneMap
  ports := s.ports.map StationPort.setup
  circuits := s.circuits.map Circuit.setup

namespace State

variable (s : State)

/-! ### Fields outside the show data -/

@[simp] theorem setPending_showData (x : List Instr) : (s.setPending x).showData = s.showData := rfl
@[simp] theorem setGroup_showData (x : Fin 3) : (s.setGroup x).showData = s.showData := rfl
@[simp] theorem setWalker_showData (x : Walker) : (s.setWalker x).showData = s.showData := rfl
@[simp] theorem setXps_showData (x : CrosspointSet) : (s.setXps x).showData = s.showData := rfl
@[simp] theorem setMixer_showData (x : MixEngine) : (s.setMixer x).showData = s.showData := rfl
@[simp] theorem setFaultLog_showData (x : FaultLog) : (s.setFaultLog x).showData = s.showData := rfl
@[simp] theorem setRequests_showData (x : List Request) : (s.setRequests x).showData = s.showData := rfl
@[simp] theorem setEntry_showData (p : Port) (k : Key) (e : KeyEntry) : (s.setEntry p k e).showData = s.showData := rfl
@[simp] theorem setJob_showData (j : Job) : (s.setJob j).showData = s.showData := rfl
@[simp] theorem hand_showData (r : Request) : (s.hand r).showData = s.showData := rfl
@[simp] theorem report_showData (kind : FaultKind) (loc : Location) : (s.report kind loc).showData = s.showData := rfl
@[simp] theorem enqueue_showData (e : KeyEvent) : (s.enqueue e).showData = s.showData := rfl
@[simp] theorem execute_showData (e : Execution) : (s.execute e).showData = s.showData := rfl
@[simp] theorem accessEnded_showData : s.accessEnded.showData = s.showData := rfl
@[simp] theorem walkReleased_showData : s.walkReleased.showData = s.showData := rfl

/-! ### Fields that hold some of the show data -/

variable {s}

theorem setManagement_showData {m : Management} (h : m.lock = s.management.lock) :
    (s.setManagement m).showData = s.showData := by
  simp [showData, h]

theorem setTrunk_showData {t : TrunkPort} (h : t.laneMap = s.trunk.laneMap) :
    (s.setTrunk t).showData = s.showData := by
  simp [showData, h]

theorem setCueList_showData {l : CueList} (h : l.entries = s.cueList.entries) :
    (s.setCueList l).showData = s.showData := by
  simp [showData, h]

theorem setDirectory_showData {d : Directory} (hr : d.region = s.directory.region) (hs : d.scene = s.directory.scene) :
    (s.setDirectory d).showData = { s.showData with ram := d.ram } := by
  simp [showData, hr, hs]

theorem setPorts_showData {v : Vector StationPort 16} (h : ∀ p : Port, v[p].setup = s.ports[p].setup) :
    (s.setPorts v).showData = s.showData := by
  have same : v.map StationPort.setup = s.ports.map StationPort.setup := table_ext fun p => by simpa using h p
  simp [showData, same]

theorem setPort_showData {p : Port} {x : StationPort} (h : x.setup = s.ports[p].setup) :
    (s.setPort p x).showData = s.showData :=
  setPorts_showData fun q => by
    simp only [Fin.getElem_fin, put_get]
    split
    · rename_i hpq
      obtain rfl : p = q := Fin.ext hpq
      exact h
    · rfl

theorem setCircuits_showData {v : Vector Circuit 24} (h : ∀ c : CircuitIx, v[c].setup = s.circuits[c].setup) :
    (s.setCircuits v).showData = s.showData := by
  have same : v.map Circuit.setup = s.circuits.map Circuit.setup := table_ext fun c => by simpa using h c
  simp [showData, same]

theorem setEachCircuit_showData {f : CircuitIx → Circuit → Circuit} (h : ∀ c x, (f c x).setup = x.setup) :
    (s.setCircuits (each s.circuits f)).showData = s.showData :=
  setCircuits_showData fun c => by
    rw [Fin.getElem_fin, each_get]
    exact h c _

theorem setCircuit_showData {c : CircuitIx} {x : Circuit} (h : x.setup = s.circuits[c].setup) :
    (s.setCircuit c x).showData = s.showData :=
  setCircuits_showData fun d => by
    simp only [Fin.getElem_fin, put_get]
    split
    · rename_i hcd
      obtain rfl : c = d := Fin.ext hcd
      exact h
    · rfl

/-! ### Operations that the blocks share -/

variable (s)

@[simp] theorem offer_showData (body : NoticeBody) : (s.offer body).showData = s.showData := by
  simp [showData]

@[simp] theorem suppress_showData (these : Tag → Bool) : (s.suppress these).showData = s.showData := by
  simp [showData]

@[simp] theorem answer_showData (a : Answer) : (s.answer a).showData = s.showData := by
  unfold answer
  split
  · rfl
  · exact setManagement_showData rfl

@[simp] theorem reply_showData (r : Reply) : (s.reply r).showData = s.showData := by
  rcases s.reply_cases r with ⟨-, e⟩ | ⟨-, e⟩ <;> rw [e]
  exact setManagement_showData rfl

@[simp] theorem postCueOpen_showData (c : CircuitIx) : (s.postCueOpen c).showData = s.showData := by
  rcases s.postCueOpen_cases c with ⟨-, e⟩ | ⟨-, e⟩ <;> simp [e]

@[simp] theorem reportAll_showData (faults : List (FaultKind × Location)) :
    (s.reportAll faults).showData = s.showData := by
  rw [reportAll_eq, setRequests_showData]

@[simp] theorem resetTaken_showData : s.resetTaken.showData = s.showData := by
  rcases s.resetTaken_cases with e | ⟨_, -, -, e⟩ <;> simp [e]

variable {s}

theorem take_showData {r : Request} {effect : State → State} (he : ∀ u : State, (effect u).showData = u.showData) :
    (s.take r effect).showData = s.showData := by
  rcases s.take_cases r effect with ⟨-, e⟩ | ⟨-, e⟩ <;> simp [e, he]

theorem begin_showData {code : Nat} {effect : List Byte → State → State}
    (he : ∀ ps, (effect ps s).showData = s.showData) : (s.begin code effect).showData = s.showData := by
  rcases s.begin_cases code effect with e | ⟨c, rest, -, -, -, ⟨-, e⟩ | ⟨-, e⟩⟩ <;> simp [e, he]

variable (s)

@[simp] theorem beginRead_showData (code : Nat) (read : List Byte → State → Answer) :
    (s.beginRead code read).showData = s.showData := begin_showData fun _ => s.answer_showData _

/-! ### Circuits and the cue list -/

theorem foldl_offer_showData (bodies : List NoticeBody) : (bodies.foldl offer s).showData = s.showData := by
  induction bodies generalizing s with
  | nil => rfl
  | cons b rest ih => rw [List.foldl_cons, ih, offer_showData]

@[simp] theorem offerChanges_showData (before : Vector Circuit 24) :
    (s.offerChanges before).showData = s.showData := by
  rw [offerChanges_eq, foldl_offer_showData]

end State

section
variable (x : Circuit) (cue : Option CueNumber) (clock : Stamp)

/-- The marks of the members are no part of a circuit's setup (5.1). -/
theorem setup_members {f : Member → Member} (hf : ∀ m, (f m).port = m.port ∧ (f m).lamp = m.lamp) (ms : List Member) :
    (ms.map f).map (fun m => (m.port, m.lamp)) = ms.map fun m => (m.port, m.lamp) := by
  rw [List.map_map]
  exact List.map_congr_left fun m _ => Prod.ext (hf m).1 (hf m).2

theorem Circuit.enterStandby_setup : (x.enterStandby cue clock).setup = x.setup :=
  congrArg (·, _) (setup_members (f := fun m => { m with answered := false }) (fun _ => ⟨rfl, rfl⟩) x.members)

theorem Circuit.enterIdle_setup : x.enterIdle.setup = x.setup :=
  congrArg (·, _) (setup_members (f := fun m => { m with answered := false }) (fun _ => ⟨rfl, rfl⟩) x.members)

theorem Circuit.markLost_setup (p : Port) (lost : Bool) : (x.markLost p lost).setup = x.setup :=
  congrArg (·, _) (setup_members (fun m => by split <;> exact ⟨rfl, rfl⟩) x.members)

theorem Circuit.answered_setup (p : Port) (l : CrewLamp) : (x.answered p l).setup = x.setup := by
  have marked := congrArg (·, x.rule, x.timeout, x.hold, x.goUnanswered) (setup_members
    (f := fun m => if m.port = p ∧ m.lamp = l ∧ m.lost = false then { m with answered := true } else m)
    (fun m => by split <;> exact ⟨rfl, rfl⟩) x.members)
  unfold Circuit.answered
  split
  · dsimp only
    split <;> exact marked
  · rfl

theorem Circuit.warned_setup : (x.warned cue clock).setup = x.setup := by
  unfold Circuit.warned
  split
  · split
    · rfl
    · exact x.enterStandby_setup cue clock
  all_goals rfl

end

namespace State

variable (s : State)

@[simp] theorem standbyQuiet_showData (c : CircuitIx) (cue : Option CueNumber) :
    (s.standbyQuiet c cue).1.showData = s.showData := by
  have warned := setCircuit_showData (s.circuits[c].warned_setup cue s.clock)
  rw [standbyQuiet_eq]
  dsimp only
  split
  · exact (postCueOpen_showData _ c).trans warned
  · exact warned

@[simp] theorem standby_showData (c : CircuitIx) (cue : Option CueNumber) :
    (s.standby c cue).1.showData = s.showData := by
  simp [standby]

@[simp] theorem goQuiet_showData (c : CircuitIx) (cue : Option CueNumber) :
    (s.goQuiet c cue).1.showData = s.showData := by
  unfold goQuiet
  dsimp only
  split
  · exact setCircuit_showData rfl
  · rfl

@[simp] theorem go_showData (c : CircuitIx) (cue : Option CueNumber) : (s.go c cue).1.showData = s.showData := by
  simp [go]

variable {s} in
theorem toIdle_showData {c : CircuitIx} {x : Circuit} (h : x.setup = s.circuits[c].setup) :
    (s.toIdle c x).showData = s.showData := by
  simp only [toIdle, offerCueEvent, suppress_showData, hand_showData, offer_showData]
  exact setCircuit_showData (x.enterIdle_setup.trans h)

@[simp] theorem cancel_showData (c : CircuitIx) : (s.cancel c).1.showData = s.showData := by
  unfold cancel
  dsimp only
  split
  case h_5 => rfl
  all_goals exact toIdle_showData rfl

@[simp] theorem standbyAll_showData (cue : CueNumber) (cs : List CircuitIx) :
    (standbyAll cue cs s).1.showData = s.showData := by
  induction cs generalizing s with
  | nil => rfl
  | cons c rest ih => exact (ih _).trans (s.standbyQuiet_showData c _)

@[simp] theorem goAll_showData (cue : CueNumber) (cs : List CircuitIx) : (s.goAll cue cs).showData = s.showData := by
  unfold goAll
  induction cs generalizing s with
  | nil => rfl
  | cons c rest ih => exact (ih _).trans (s.goQuiet_showData c _)

@[simp] theorem autoStandby_showData : s.autoStandby.1.showData = s.showData := by
  unfold autoStandby
  split
  · split
    · exact s.standbyAll_showData _ _
    · rfl
  · rfl

@[simp] theorem goNext_showData : s.goNext.1.showData = s.showData := by
  unfold goNext
  split
  · rfl
  · split
    · rfl
    · dsimp only
      rw [offerChanges_showData, autoStandby_showData]
      exact (setCueList_showData rfl).trans (s.goAll_showData _ _)

@[simp] theorem standbyNext_showData : s.standbyNext.1.showData = s.showData := by
  unfold standbyNext
  split
  · rfl
  · dsimp only
    split <;> simp

@[simp] theorem back_showData : s.back.1.showData = s.showData := by
  unfold back
  split <;> rfl

@[simp] theorem skip_showData : s.skip.1.showData = s.showData := by
  unfold skip
  split <;> rfl

@[simp] theorem takeLostMark_showData (p : Port) (lost : Bool) : (s.takeLostMark p lost).showData = s.showData := by
  unfold takeLostMark
  split
  · exact take_showData fun u => setEachCircuit_showData fun _ x => x.markLost_setup p lost
  · rfl

@[simp] theorem abortCircuits_showData (cs : List CircuitIx) : (cs.foldl abortCircuit s).showData = s.showData := by
  induction cs generalizing s with
  | nil => rfl
  | cons c rest ih =>
    refine (ih _).trans ?_
    unfold abortCircuit
    dsimp only
    split
    · rfl
    · exact (offer_showData _ _).trans (setCircuit_showData (Circuit.enterIdle_setup _))

/-! ### Keys, walks and the crosspoint set -/

variable {s} in
theorem Handles.showData {t : State} (h : s.Handles t) : t.showData = s.showData := by
  rw [h.others, setWalker_showData, setXps_showData]

@[simp] theorem install_showData (r : Install) : (s.install r).1.showData = s.showData := by
  obtain ⟨m, rs, e⟩ := s.install_eq r
  have lock := ((Calm.refl s).install r).lock
  rw [e] at lock ⊢
  exact setManagement_showData lock

@[simp] theorem handle_showData (e : KeyEvent) : (s.handle e).showData = s.showData := by
  rcases s.handle_eq e with e | ⟨u, j, hu, -, e⟩ <;> rw [e]
  exact hu.showData

@[simp] theorem applyLevels_showData (ls : List KeyLevel) : (s.applyLevels ls).showData = s.showData := by
  obtain ⟨u, j, hu, -, e⟩ := s.applyLevels_eq ls
  rw [e]
  exact hu.showData

@[simp] theorem settleCalls_showData (tag : Tag) (hs : List Hit) (ok : Bool) :
    (s.settleCalls tag hs ok).1.showData = s.showData := ((Handles.refl s).settleCalls tag hs ok).1.showData

@[simp] theorem startMaking_showData (w : Walk) : (s.startMaking w).1.showData = s.showData :=
  (s.startMaking_eq w).1.showData

@[simp] theorem walkMissed_showData (w : Walk) : (s.walkMissed w).showData = s.showData := by
  unfold walkMissed
  dsimp only
  split <;> simp

@[simp] theorem walkOutcome_showData (w : Walk) (ok : Bool) : (s.walkOutcome w ok).showData = s.showData := by
  unfold walkOutcome
  cases w.tag <;> cases ok <;> cases w.reading.firstIgnored <;> simp

@[simp] theorem installHit_showData (tag : Tag) (x : Hit) : (s.installHit tag x).1.showData = s.showData := by
  unfold installHit
  split <;> simp

/-- The end of a walk releases its scrubs (R53). -/
@[simp] theorem endWalk_showData (w : Walk) (rest : List KeyLevel) : (s.endWalk w rest).showData =
    { s.showData with ram := w.reading.scrubs.foldl TableRam.scrub s.showData.ram } := by
  rw [endWalk, applyLevels_showData, walkReleased_showData]
  exact setDirectory_showData rfl rfl

/-! ### Cells and the fault log -/

@[simp] theorem handCell_showData (cell : List Byte) : (s.handCell cell).showData = s.showData := by
  unfold handCell admitCommand data
  dsimp only
  split
  · split
    · exact setManagement_showData rfl
    · simp
  · split
    · split <;> simp
    all_goals simp
  all_goals rfl

@[simp] theorem newFault_showData (kind : FaultKind) (loc : Location) (overflow : Bool) (log : FaultLog) :
    (s.newFault kind loc overflow log).showData = s.showData := by
  unfold newFault
  dsimp only
  split
  · exact setCueList_showData rfl
  · exact (offer_showData _ _).trans (setCueList_showData rfl)

@[simp] theorem logFault_showData (kind : FaultKind) (loc : Location) :
    (s.logFault kind loc).showData = s.showData := by
  unfold logFault
  dsimp only
  split
  · simp
  · split
    · simp
    · split <;> simp

end State

/-! ### Station ports and the trunk -/

theorem StationPort.push_setup (x : StationPort) (v : Sample) : (x.push v).setup = x.setup := by
  rw [StationPort.push_eq]
  rfl

theorem StationPort.takeFrame_setup (x : StationPort) (u : Uplink) : (x.takeFrame u).setup = x.setup :=
  StationPort.push_setup _ _

theorem StationPort.takeSample_setup (x : StationPort) : x.takeSample.setup = x.setup := by
  rcases x.takeSample_cases with ⟨-, e⟩ | ⟨_, _, -, -, e⟩ | ⟨-, -, e⟩ <;> rw [e] <;> rfl

namespace State

variable (s : State)

@[simp] theorem deskReply_showData (p : Port) (seq : Byte) (status : Status) :
    (s.deskReply p seq status).showData = s.showData := by
  rcases s.deskReply_cases p seq status with e | ⟨-, -, e⟩ <;> rw [e]
  exact setPort_showData rfl

variable {s} in
theorem takeDesk_showData {p : Port} {r : DeskRequest} {effect : State → State × Status}
    (he : ∀ u : State, (effect u).1.showData = u.showData) : (s.takeDesk p r effect).showData = s.showData := by
  unfold takeDesk
  split
  · split
    · dsimp only
      split <;> simp [he]
    · rfl
  · rfl

@[simp] theorem dropPort_showData (p : Port) : (s.dropPort p).showData = s.showData := by
  rw [dropPort_eq, suppress_showData, setRequests_showData]
  exact setPort_showData rfl

@[simp] theorem lostFrame_showData (p : Port) (held : Bool) : (s.lostFrame p held).showData = s.showData := by
  unfold lostFrame
  dsimp only
  split
  · exact setPort_showData rfl
  · split <;> exact setPort_showData rfl
  · split
    · refine setPort_showData ?_
      split
      · exact StationPort.push_setup _ _
      · rfl
    · simp

@[simp] theorem edges_showData (p : Port) (before after : BitVec 7) :
    (s.edges p before after).showData = s.showData := by
  have answered (u : State) (l : CrewLamp) (was is : Bool) : (u.answerEdge p l was is).showData = u.showData := by
    unfold answerEdge
    split <;> rfl
  rw [edges, answered, answered, foldl_talkEdge]
  dsimp only
  rw [setRequests_showData, setWalker_showData]
  exact setPort_showData rfl

@[simp] theorem deskMessage_showData (p : Port) (bytes : List Byte) :
    (s.deskMessage p bytes).showData = s.showData := by
  unfold deskMessage
  split
  · dsimp only
    split <;> simp
  · rfl

@[simp] theorem deskByte_showData (p : Port) (u : Uplink) : (s.deskByte p u).showData = s.showData := by
  have assembled (bytes : List Byte) : (s.setPort p { s.ports[p] with assembler := bytes }).showData = s.showData :=
    setPort_showData rfl
  unfold deskByte
  dsimp only
  split
  · split
    · exact (deskMessage_showData _ _ _).trans (assembled _)
    · exact assembled _
  · rfl

@[simp] theorem goodFrame_showData (p : Port) (u : Uplink) : (s.goodFrame p u).showData = s.showData := by
  unfold goodFrame
  dsimp only
  split
  · exact setPort_showData rfl
  · split
    · exact setPort_showData rfl
    · rw [deskByte_showData, hand_showData]
      exact setPort_showData (StationPort.takeFrame_setup _ u)
  · rw [deskByte_showData, edges_showData]
    exact setPort_showData (StationPort.takeFrame_setup _ u)

@[simp] theorem loseFrame_showData (held : Period) : (s.loseFrame held).showData = s.showData := by
  unfold loseFrame
  dsimp only
  split <;> exact setTrunk_showData rfl

@[simp] theorem takeTrunkFrame_showData (f : TrunkFrame) : (s.takeTrunkFrame f).showData = s.showData := by
  have took (field : CellField) : (s.setTrunk { s.trunk with
      badRun := 0, presented := f.lanes, lastGood := f.lanes, upstreamLost := f.upstreamLost
      period := some (.taken f.number f.upstreamLost f.lanes field) }).showData = s.showData := setTrunk_showData rfl
  unfold takeTrunkFrame
  dsimp only
  split
  · exact took _
  · exact (handCell_showData _ _).trans (took _)
  · exact took _

@[simp] theorem frameStart_showData : s.frameStart.showData = s.showData := by
  have ports : s.frameStart.ports.map StationPort.setup = s.ports.map StationPort.setup := table_ext fun p => by
    obtain ⟨f, e⟩ := s.frameStart_port_sent p
    simp only [Fin.getElem_fin, Vector.getElem_map] at e ⊢
    rw [e]
    exact StationPort.takeSample_setup _
  have circuits : (each s.circuits fun _ x => x.tick (s.trunk.clock + 1)).map Circuit.setup =
      s.circuits.map Circuit.setup := table_ext fun c => by
    simp only [Fin.getElem_fin, Vector.getElem_map, each_get]
    rfl
  simp only [showData, frameStart_lock, frameStart_directory, frameStart_cueList, frameStart_laneMap,
    frameStart_circuits, ports, circuits]

end State

end Sys2Proof.Machine
end

section
/-!
PROOFS, the show lock (R161, R176 to R178): every command under a FROZEN lock, and O51.
-/

namespace Sys2Proof.Machine

/-! ### The relation that every command is in -/

/-- The show data stays as it is, but that table RAM is read and scrubbed. -/
def ShowData.Kept (a b : ShowData) : Prop := ∃ m, a.ram.Keeps m ∧ b = { a with ram := m }

/-- A step under a FROZEN lock keeps the show data (R178). -/
def State.KeepsShow (s t : State) : Prop := s.management.lock = .frozen → s.lockSound → s.showData.Kept t.showData

theorem ShowData.Kept.refl (a : ShowData) : a.Kept a := ⟨a.ram, .refl _, rfl⟩

namespace State.KeepsShow

variable {s t : State}

/-- A step that leaves the show data as it is, whatever the lock. -/
theorem of_eq (h : t.showData = s.showData) : s.KeepsShow t := fun _ _ => h ▸ .refl _

theorem refl (s : State) : s.KeepsShow s := of_eq rfl

theorem of_ram {m : TableRam} (hm : s.directory.ram.Keeps m) (h : t.showData = { s.showData with ram := m }) :
    s.KeepsShow t := fun _ _ => ⟨m, hm, h⟩

/-- Under a FROZEN lock a command begins only if the lock does not refuse its code (R161, R177). -/
theorem begin {code : Nat} {effect : List Byte → State → State}
    (he : LockState.frozen.refuses (BitVec.ofNat 8 code) = false → ∀ ps, s.KeepsShow (effect ps s)) :
    s.KeepsShow (s.begin code effect) := fun frozen sound => by
  rcases s.begin_cases code effect with e | ⟨c, rest, -, -, hcode, ⟨-, e⟩ | ⟨hl, e⟩⟩ <;> rw [e]
  · exact .refl _
  · rw [State.answer_showData]
    exact .refl _
  · refine he ?_ _ frozen sound
    rwa [frozen, ← BitVec.setWidth_eq c.code, ← BitVec.ofNat_toNat, hcode] at hl

/-- A command that a FROZEN lock refuses. -/
theorem refused {code : Nat} {effect : List Byte → State → State}
    (hc : LockState.frozen.refuses (BitVec.ofNat 8 code) = true) : s.KeepsShow (s.begin code effect) :=
  begin fun allowed => absurd (hc.symm.trans allowed) (by decide)

end State.KeepsShow

open State (KeepsShow)

/-- The command leaves the show data as it is, whatever the lock. -/
def State.SameShow (s t : State) : Prop := t.showData = s.showData

theorem Leads.keepsShow {i : Instr} (h : Leads State.SameShow i) : Leads State.KeepsShow i := fun s =>
  have ⟨t, ht, hs⟩ := h s
  ⟨t, ht, .of_eq hs⟩

/-! ### Table RAM (R44, R50, R52, R55, R69) -/

/-- A read of a place, after the errors that it finds, changes table RAM alone. -/
theorem State.readPlace_showData (s : State) (i : Place) (upsets : Upsets) : ∃ m, s.directory.ram.Keeps m
    ∧ (s.readPlace i upsets).showData = { s.showData with ram := m } := by
  have fetched := (TableRam.Keeps.upsetAll s.directory.ram upsets).trans (.fetch _ i)
  have answered (m : TableRam) (faults : List (FaultKind × Location)) (a : Answer) :
      (((s.setDirectory { s.directory with ram := m }).reportAll faults).answer a).showData =
        { s.showData with ram := m } := by
    rw [State.answer_showData, State.reportAll_showData]
    exact State.setDirectory_showData rfl rfl
  unfold State.readPlace
  dsimp only
  split
  · exact ⟨_, fetched, answered _ _ _⟩
  · refine ⟨_, ?_, answered _ _ _⟩
    split
    · exact fetched.trans (.scrub _ i)
    · exact fetched

/-- With the lock FROZEN the access that waits is a read (R177, R179). -/
theorem State.access_keepsShow {s : State} {a : Access} (upsets : Upsets) (h : LockState.frozen.lets (.access a)) :
    s.KeepsShow (s.access a upsets) := by
  obtain ⟨noRegion, noScene⟩ := h
  cases a with
  | readRecord i =>
    obtain ⟨m, hm, e⟩ := s.readPlace_showData i upsets
    exact .of_ram hm e
  | setRegion r => exact absurd rfl ((noRegion (by decide)).2 r)
  | setScene n => exact absurd rfl (noScene rfl n)

theorem keepsShow_readRecord (upsets : Upsets) : Leads State.KeepsShow (.readRecord upsets) := by
  refine fun s => ⟨_, rfl, .begin fun _ ps => ?_⟩
  unfold readRecord State.askPort
  split
  · exact .of_eq (s.answer_showData _)
  · split
    · exact State.access_keepsShow _ (LockState.lets_readRecord _ _)
    · exact .of_eq rfl

theorem keepsShow_tablePortGrant (upsets : Upsets) : Leads State.KeepsShow (.tablePortGrant upsets) := by
  refine fun s => ⟨_, rfl, fun frozen sound => ?_⟩
  split
  · rename_i a ha
    have lets := ((State.lockSound_iff s).1 sound).2
    rw [frozen, ha] at lets
    split
    · exact State.access_keepsShow _ lets frozen sound
    · exact .refl _
  all_goals exact .refl _

/-- No load is open with the lock FROZEN (R179), so no record is written. -/
theorem keepsShow_recordWrite : Leads State.KeepsShow .recordWrite := by
  refine fun s => ⟨_, rfl, fun frozen sound => ?_⟩
  split
  · rename_i l hl
    have lets := ((State.lockSound_iff s).1 sound).2
    rw [hl] at lets
    exact absurd (frozen.symm.trans lets.unlocked) (by decide)
  all_goals exact .refl _

/-- RAM initialisation is over before the lock can be set (R160). -/
theorem keepsShow_ramInitialisationEnd : Leads State.KeepsShow .ramInitialisationEnd := by
  refine fun s => ⟨_, rfl, fun frozen sound => ?_⟩
  split
  · rename_i initialising
    have ended := ((State.lockSound_iff s).1 sound).1 (by rw [frozen]; decide)
    exact absurd (ended.symm.trans initialising) (by decide)
  · exact .refl _

theorem keepsShow_walkStart (upsets : Upsets) : Leads State.KeepsShow (.walkStart upsets) := by
  refine fun s => ⟨_, rfl, ?_⟩
  split
  · rename_i tag _ _ _
    split
    · refine .of_ram ((TableRam.Keeps.upsetAll _ upsets).trans
        (.readWalk _ tag s.directory.region s.directory.scene)) ?_
      dsimp only
      rw [State.reportAll_showData, State.setJob_showData]
      exact State.setDirectory_showData rfl rfl
    · exact .refl s
  all_goals exact .refl s

/-- A walk ends in a state with the show data as it was. -/
theorem State.endWalk_keepsShow {s u : State} (h : u.showData = s.showData) (w : Walk) (rest : List KeyLevel) :
    s.KeepsShow (u.endWalk w rest) :=
  .of_ram (.scrubs _ w.reading.scrubs) (by rw [State.endWalk_showData, h]; rfl)

theorem keepsShow_walkEnd : Leads State.KeepsShow .walkEnd := by
  refine fun s => ⟨_, rfl, ?_⟩
  split
  · rename_i w rest _
    split
    · split
      · exact .refl s
      · split
        · split
          · exact State.endWalk_keepsShow (s.walkMissed_showData w) w rest
          · dsimp only
            split
            · refine State.endWalk_keepsShow ?_ w rest
              rw [State.walkOutcome_showData, State.startMaking_showData]
            · exact .of_eq (s.startMaking_showData w)
        · exact State.endWalk_keepsShow rfl w rest
    · exact State.endWalk_keepsShow (s.walkOutcome_showData w _) w rest
    · exact .refl s
  all_goals exact .refl s

/-! ### Events -/

theorem sameShow_frameStart : Leads State.SameShow .frameStart := by
  refine fun s => ⟨_, rfl, ?_⟩
  split
  · exact s.frameStart_showData
  · rfl

theorem sameShow_trunkArrival (bytes : List Byte) : Leads State.SameShow (.trunkArrival bytes) := by
  refine fun s => ⟨_, rfl, ?_⟩
  split
  · rfl
  · exact State.setTrunk_showData rfl
  · exact State.setTrunk_showData rfl
  · refine State.setTrunk_showData ?_
    unfold TrunkPort.verified
    split <;> rfl
  · exact State.setTrunk_showData rfl
  · exact s.takeTrunkFrame_showData _
  · exact s.loseFrame_showData _

theorem sameShow_missingFrame : Leads State.SameShow .missingFrame := by
  refine fun s => ⟨_, rfl, ?_⟩
  split
  · rfl
  · exact State.setTrunk_showData rfl
  · exact s.loseFrame_showData _

theorem sameShow_linkReport (p : Port) (report : UplinkReport) : Leads State.SameShow (.linkReport p report) := by
  refine fun s => ⟨_, rfl, ?_⟩
  split
  · rfl
  · split
    · exact s.lostFrame_showData p false
    · split
      · exact s.goodFrame_showData p _
      · exact s.lostFrame_showData p true

theorem sameShow_statePost (p : Port) : Leads State.SameShow (.statePost p) := by
  refine fun s => ⟨_, rfl, ?_⟩
  dsimp only
  split
  · exact (State.enqueue_showData _ _).trans (State.setPort_showData rfl)
  · rfl

theorem sameShow_keyEventTake : Leads State.SameShow .keyEventTake := by
  refine fun s => ⟨_, rfl, ?_⟩
  split
  · rfl
  · split
    · exact State.handle_showData _ _
    · rfl

theorem sameShow_busyLampRequest (p : Port) (k : Key) : Leads State.SameShow (.busyLampRequest p k) := by
  refine fun s => ⟨_, rfl, State.take_showData fun u => ?_⟩
  split
  · split <;> rfl
  all_goals rfl

theorem sameShow_crosspointInstall : Leads State.SameShow .crosspointInstall := by
  refine fun s => ⟨_, rfl, ?_⟩
  unfold State.SameShow
  split
  · split <;> simp
  · simp
  · rfl

theorem sameShow_removeKey (p : Port) (k : Key) : Leads State.SameShow (.removeKey p k) := by
  refine fun s => ⟨_, rfl, ?_⟩
  split
  · rfl
  · split
    · exact s.setXps_showData _
    · rfl

theorem sameShow_removePortKeys (p : Port) : Leads State.SameShow (.removePortKeys p) := by
  refine fun s => ⟨_, rfl, ?_⟩
  split
  · rfl
  · exact State.take_showData fun u =>
      (State.hand_showData _ _).trans (u.setXps_showData _)

theorem sameShow_removeCircuit (c : CircuitIx) : Leads State.SameShow (.removeCircuit c) := by
  refine fun s => ⟨_, rfl, ?_⟩
  split
  · rfl
  · exact State.take_showData fun u => u.setXps_showData _

theorem sameShow_removeKeysAndCues : Leads State.SameShow .removeKeysAndCues :=
  fun _ => ⟨_, rfl, State.take_showData fun u =>
    ((State.hand_showData _ _).trans (State.hand_showData _ _)).trans (u.setXps_showData _)⟩

theorem sameShow_portRowReset (p : Port) : Leads State.SameShow (.portRowReset p) := by
  refine fun s => ⟨_, rfl, ?_⟩
  split
  · exact State.take_showData fun _ => rfl
  · rfl

theorem sameShow_lostMarkSet (p : Port) : Leads State.SameShow (.lostMarkSet p) := by
  refine fun s => ⟨_, rfl, ?_⟩
  split
  · exact State.takeLostMark_showData _ p true
  · rfl

theorem sameShow_answer (p : Port) (l : CrewLamp) : Leads State.SameShow (.answer p l) := by
  refine fun s => ⟨_, rfl, ?_⟩
  split
  · exact State.take_showData fun u =>
      (State.offerChanges_showData _ _).trans (State.setEachCircuit_showData fun _ x => x.answered_setup p l)
  · rfl

theorem sameShow_standbyTimerExpiry (c : CircuitIx) : Leads State.SameShow (.standbyTimerExpiry c) := by
  refine fun s => ⟨_, rfl, ?_⟩
  dsimp only
  split
  · exact (State.offer_showData _ _).trans (State.setCircuit_showData rfl)
  · rfl

theorem sameShow_goHoldExpiry (c : CircuitIx) : Leads State.SameShow (.goHoldExpiry c) := by
  refine fun s => ⟨_, rfl, ?_⟩
  dsimp only
  split
  · split
    · exact (State.offer_showData _ _).trans (State.setCircuit_showData (Circuit.enterStandby_setup _ _ _))
    · exact State.toIdle_showData rfl
  · rfl

/-- A desk request is carried out by the cue engine or the cue list. -/
theorem sameShow_desk {i : Instr} (p : Port) (r : DeskRequest) {effect : State → State × Status}
    (hi : ∀ s, exec i s = .next (s.takeDesk p r effect)) (he : ∀ u : State, (effect u).1.showData = u.showData) :
    Leads State.SameShow i := fun s => ⟨_, hi s, State.takeDesk_showData he⟩

theorem sameShow_walkerReset : Leads State.SameShow .walkerReset :=
  fun _ => ⟨_, rfl, State.take_showData fun _ => State.resetTaken_showData _⟩

theorem sameShow_circuitAbort : Leads State.SameShow .circuitAbort :=
  fun _ => ⟨_, rfl, State.take_showData fun u => (State.resetTaken_showData _).trans (u.abortCircuits_showData _)⟩

theorem sameShow_portResync (p : Port) : Leads State.SameShow (.portResync p) := by
  refine fun s => ⟨_, rfl, State.take_showData fun u => (State.resetTaken_showData _).trans ?_⟩
  split
  · exact State.setPort_showData rfl
  · rfl

theorem sameShow_loadTimerExpiry : Leads State.SameShow .loadTimerExpiry := by
  refine fun s => ⟨_, rfl, ?_⟩
  split
  · split
    · exact s.answer_showData _
    · rfl
  all_goals rfl

/-! ### Commands that a FROZEN lock does not refuse -/

theorem sameShow_unknownCommand : Leads State.SameShow .unknownCommand := by
  refine fun s => ⟨_, rfl, ?_⟩
  split
  · rfl
  · split
    · exact s.answer_showData _
    · rfl

/-- A command of the management engine whose effect leaves the show data as it is. -/
theorem sameShow_begin {i : Instr} {code : Nat} {effect : List Byte → State → State}
    (hi : ∀ s, exec i s = .next (s.begin code effect)) (he : ∀ ps s, (effect ps s).showData = s.showData) :
    Leads State.SameShow i := fun s => ⟨_, hi s, State.begin_showData fun ps => he ps s⟩

/-- A command that reads. -/
theorem sameShow_read {i : Instr} {code : Nat} {read : List Byte → State → Answer}
    (hi : ∀ s, exec i s = .next (s.beginRead code read)) : Leads State.SameShow i :=
  fun s => ⟨_, hi s, s.beginRead_showData code read⟩

theorem setGain_showData (ps : List Byte) (s : State) : (setGain ps s).showData = s.showData := by
  unfold setGain
  dsimp only
  split
  · simp
  · split <;> simp

theorem retryKey_showData (ps : List Byte) (s : State) : (retryKey ps s).showData = s.showData := by
  unfold retryKey
  split
  · split
    · split <;> simp
    · simp
  · simp

theorem cueCommand_showData {f : CircuitIx → State → State × Status}
    (hf : ∀ c (u : State), (f c u).1.showData = u.showData) (ps : List Byte) (s : State) :
    (cueCommand f ps s).showData = s.showData := by
  unfold cueCommand
  split <;> simp [hf]

theorem cueNext_showData (ps : List Byte) (s : State) : (cueNext ps s).showData = s.showData := by
  refine (State.answer_showData _ _).trans ?_
  rcases listRequest_cases (byteAt ps 0).toNat with h | h | h | h | h <;> rw [h]
  · exact s.goNext_showData
  · exact s.standbyNext_showData
  · exact s.back_showData
  · exact s.skip_showData

theorem cueCursor_showData (ps : List Byte) (s : State) : (cueCursor ps s).showData = s.showData :=
  (State.answer_showData _ _).trans (State.setCueList_showData rfl)

theorem readFaults_showData (ps : List Byte) (s : State) : (readFaults ps s).showData = s.showData := by
  unfold readFaults
  dsimp only
  split <;> simp

theorem clearFaults_showData (ps : List Byte) (s : State) : (clearFaults ps s).showData = s.showData :=
  State.answer_showData _ _

/-- FREEZE SHOW leaves a FROZEN lock FROZEN (R176). -/
theorem keepsShow_freezeShow : Leads State.KeepsShow .freezeShow :=
  fun _ => ⟨_, rfl, .begin fun _ _ frozen sound =>
    KeepsShow.of_eq ((State.answer_showData _ _).trans (State.setManagement_showData frozen.symm)) frozen sound⟩

/-! ### All of them -/

/-- A command that a FROZEN lock refuses keeps the show data. -/
theorem keepsShow_refused {i : Instr} (code : Nat) {effect : List Byte → State → State}
    (hi : ∀ s, exec i s = .next (s.begin code effect))
    (hc : LockState.frozen.refuses (BitVec.ofNat 8 code) = true := by decide) : Leads State.KeepsShow i :=
  fun s => ⟨_, hi s, .refused hc⟩

theorem leads_keepsShow {i : Instr} (hi : ∀ straps, i ≠ .pinReset straps) : Leads State.KeepsShow i := by
  cases i with
  | pinReset straps => exact absurd rfl (hi straps)
  | ramInitialisationEnd => exact keepsShow_ramInitialisationEnd
  | frameStart => exact sameShow_frameStart.keepsShow
  | trunkArrival bytes => exact (sameShow_trunkArrival bytes).keepsShow
  | missingFrame => exact sameShow_missingFrame.keepsShow
  | linkReport p report => exact (sameShow_linkReport p report).keepsShow
  | statePost p => exact (sameShow_statePost p).keepsShow
  | keyEventTake => exact sameShow_keyEventTake.keepsShow
  | walkStart upsets => exact keepsShow_walkStart upsets
  | walkEnd => exact keepsShow_walkEnd
  | busyLampRequest p k => exact (sameShow_busyLampRequest p k).keepsShow
  | crosspointInstall => exact sameShow_crosspointInstall.keepsShow
  | removeKey p k => exact (sameShow_removeKey p k).keepsShow
  | removePortKeys p => exact (sameShow_removePortKeys p).keepsShow
  | removeCircuit c => exact (sameShow_removeCircuit c).keepsShow
  | removeKeysAndCues => exact sameShow_removeKeysAndCues.keepsShow
  | portRowReset p => exact (sameShow_portRowReset p).keepsShow
  | lostMarkSet p => exact (sameShow_lostMarkSet p).keepsShow
  | lostMarkClear p => exact fun s => ⟨_, rfl, .of_eq (s.takeLostMark_showData p false)⟩
  | standbyRequest p c => exact (sameShow_desk p _ (fun _ => rfl) fun u => u.standby_showData c none).keepsShow
  | goRequest p c => exact (sameShow_desk p _ (fun _ => rfl) fun u => u.go_showData c none).keepsShow
  | cancelRequest p c => exact (sameShow_desk p _ (fun _ => rfl) fun u => u.cancel_showData c).keepsShow
  | answer p l => exact (sameShow_answer p l).keepsShow
  | standbyTimerExpiry c => exact (sameShow_standbyTimerExpiry c).keepsShow
  | goHoldExpiry c => exact (sameShow_goHoldExpiry c).keepsShow
  | goNext p => exact (sameShow_desk p _ (fun _ => rfl) State.goNext_showData).keepsShow
  | standbyNext p => exact (sameShow_desk p _ (fun _ => rfl) State.standbyNext_showData).keepsShow
  | back p => exact (sameShow_desk p _ (fun _ => rfl) State.back_showData).keepsShow
  | skip p => exact (sameShow_desk p _ (fun _ => rfl) State.skip_showData).keepsShow
  | unknownCommand => exact sameShow_unknownCommand.keepsShow
  | identify => exact (sameShow_read fun _ => rfl).keepsShow
  | softReset => exact keepsShow_refused 0x02 fun _ => rfl
  | walkerReset => exact sameShow_walkerReset.keepsShow
  | circuitAbort => exact sameShow_circuitAbort.keepsShow
  | portResync p => exact (sameShow_portResync p).keepsShow
  | portSetup => exact keepsShow_refused 0x10 fun _ => rfl
  | portStatus => exact (sameShow_read fun _ => rfl).keepsShow
  | laneMap => exact keepsShow_refused 0x12 fun _ => rfl
  | slotEnable => exact keepsShow_refused 0x20 fun _ => rfl
  | slotRetire => exact keepsShow_refused 0x21 fun _ => rfl
  | installCrosspoint => exact keepsShow_refused 0x22 fun _ => rfl
  | removeCrosspoint => exact keepsShow_refused 0x23 fun _ => rfl
  | setGain => exact (sameShow_begin (fun _ => rfl) setGain_showData).keepsShow
  | readSlot => exact (sameShow_read fun _ => rfl).keepsShow
  | directorySetup => exact keepsShow_refused 0x30 fun _ => rfl
  | writeRecords => exact keepsShow_refused 0x31 fun _ => rfl
  | readRecord upsets => exact keepsShow_readRecord upsets
  | selectScene => exact keepsShow_refused 0x33 fun _ => rfl
  | tablePortGrant upsets => exact keepsShow_tablePortGrant upsets
  | recordWrite => exact keepsShow_recordWrite
  | loadTimerExpiry => exact sameShow_loadTimerExpiry.keepsShow
  | retryKey => exact (sameShow_begin (fun _ => rfl) retryKey_showData).keepsShow
  | circuitSetup => exact keepsShow_refused 0x40 fun _ => rfl
  | readCircuit => exact (sameShow_read fun _ => rfl).keepsShow
  | cueStandby =>
    exact (sameShow_begin (fun _ => rfl) (cueCommand_showData fun c u => u.standby_showData c none)).keepsShow
  | cueGo => exact (sameShow_begin (fun _ => rfl) (cueCommand_showData fun c u => u.go_showData c none)).keepsShow
  | cueCancel => exact (sameShow_begin (fun _ => rfl) (cueCommand_showData fun c u => u.cancel_showData c)).keepsShow
  | cueNext => exact (sameShow_begin (fun _ => rfl) cueNext_showData).keepsShow
  | cueListWrite => exact keepsShow_refused 0x46 fun _ => rfl
  | cueListTruncate => exact keepsShow_refused 0x47 fun _ => rfl
  | cueCursor => exact (sameShow_begin (fun _ => rfl) cueCursor_showData).keepsShow
  | readCueList => exact (sameShow_read fun _ => rfl).keepsShow
  | readLastCue => exact (sameShow_read fun _ => rfl).keepsShow
  | readFaults => exact (sameShow_begin (fun _ => rfl) readFaults_showData).keepsShow
  | clearFaults => exact (sameShow_begin (fun _ => rfl) clearFaults_showData).keepsShow
  | lockShow => exact keepsShow_refused 0x60 fun _ => rfl
  | unlockShow => exact keepsShow_refused 0x61 fun _ => rfl
  | freezeShow => exact keepsShow_freezeShow
  | faultReport kind loc =>
    exact fun s => ⟨_, rfl, .of_eq (State.take_showData fun u => u.logFault_showData kind loc)⟩

/-- What the show data says of each block. -/
theorem ShowData.Kept.fields {s t : State} (h : s.showData.Kept t.showData) (hw : s.directory.ram.wf) :
    t.management.lock = s.management.lock ∧ t.directory.region = s.directory.region
      ∧ t.directory.scene = s.directory.scene
      ∧ (∀ i : Nat, (t.directory.ram.read i).content = (s.directory.ram.read i).content
          ∧ ((s.directory.ram.read i).poisoned = true → (t.directory.ram.read i).poisoned = true))
      ∧ t.cueList.entries = s.cueList.entries ∧ t.trunk.laneMap = s.trunk.laneMap
      ∧ (∀ p : Port, t.ports[p].setup = s.ports[p].setup)
      ∧ ∀ n : CircuitIx, t.circuits[n].setup = s.circuits[n].setup := by
  obtain ⟨m, hm, e⟩ := h
  have ram : t.directory.ram = m := congrArg ShowData.ram e
  have ports : t.ports.map StationPort.setup = s.ports.map StationPort.setup := congrArg ShowData.ports e
  have circuits : t.circuits.map Circuit.setup = s.circuits.map Circuit.setup := congrArg ShowData.circuits e
  refine ⟨congrArg ShowData.lock e, congrArg ShowData.region e, congrArg ShowData.scene e, fun i => ?_,
    congrArg ShowData.entries e, congrArg ShowData.laneMap e, fun p => ?_, fun n => ?_⟩
  · rw [ram]
    exact (hm hw).2 i
  · simpa using congrArg (·[p]) ports
  · simpa using congrArg (·[n]) circuits

/-! ### The lock commands and what the lock refuses (R161, R176, R177) -/

section
variable {s : State} {c : Command} {rest : List Command}

/-- A lock command that the lock does not refuse sets it, and answers it before and after (R176). -/
theorem State.canRun.setLock {code : Nat} {locks : List LockState} (h : s.canRun code locks c rest)
    (hl : ∀ l ∈ locks, l.refuses (BitVec.ofNat 8 code) = false) (next : LockState) :
    s.begin code (setLock fun _ => next) = (s.setManagement { s.management with lock := next }).answered c rest
      ⟨.done, false, [byte s.management.lock.code, byte next.code]⟩ :=
  (h.begin hl _).trans (h.answer (t := s.setManagement { s.management with lock := next }) rfl _)

/-- A command of setup is refused under LOCKED and under FROZEN. -/
theorem exec_of_setup_refused {code : Nat} {i : Instr} (h : s.canRun code [.locked, .frozen] c rest)
    (hi : (code, i) ∈ [(0x31, Instr.writeRecords), (0x30, .directorySetup), (0x46, .cueListWrite),
      (0x47, .cueListTruncate), (0x40, .circuitSetup), (0x10, .portSetup), (0x12, .laneMap), (0x20, .slotEnable),
      (0x21, .slotRetire)]) : exec i s = .next (s.answered c rest ⟨.locked, false, []⟩) := by
  simp only [List.mem_cons, Prod.mk.injEq, List.not_mem_nil, or_false] at hi
  rcases hi with ⟨rfl, rfl⟩ | ⟨rfl, rfl⟩ | ⟨rfl, rfl⟩ | ⟨rfl, rfl⟩ | ⟨rfl, rfl⟩ | ⟨rfl, rfl⟩ | ⟨rfl, rfl⟩
    | ⟨rfl, rfl⟩ | ⟨rfl, rfl⟩
  all_goals exact congrArg _ (h.refused (by decide) _)

/-- The scene, connections, soft reset and the two other lock commands are refused under FROZEN. -/
theorem exec_of_frozen_refused {code : Nat} {i : Instr} (h : s.canRun code [.frozen] c rest)
    (hi : (code, i) ∈ [(0x33, Instr.selectScene), (0x22, .installCrosspoint), (0x23, .removeCrosspoint),
      (0x02, .softReset), (0x60, .lockShow), (0x61, .unlockShow)]) :
    exec i s = .next (s.answered c rest ⟨.locked, false, []⟩) := by
  simp only [List.mem_cons, Prod.mk.injEq, List.not_mem_nil, or_false] at hi
  rcases hi with ⟨rfl, rfl⟩ | ⟨rfl, rfl⟩ | ⟨rfl, rfl⟩ | ⟨rfl, rfl⟩ | ⟨rfl, rfl⟩ | ⟨rfl, rfl⟩
  all_goals exact congrArg _ (h.refused (by decide) _)

/-- A code outside the catalogue is answered UNKNOWN (R161). -/
theorem exec_unknownCommand_of_code {code : Nat} {locks : List LockState} (h : s.canRun code locks c rest)
    (hcode : code ∉ catalogue) : exec .unknownCommand s = .next (s.answered c rest ⟨.unknown, false, []⟩) := by
  have placed := h.answer (t := s) rfl (.bare .unknown)
  obtain ⟨hc, rfl, hi, he, hr, -⟩ := h
  have begins : s.mayBegin = true ∧ ¬ catalogue.contains c.code.toNat = true :=
    ⟨s.mayBegin_iff.2 ⟨hi, he, hr⟩, by simpa using hcode⟩
  show Host.Outcome.next _ = _
  rw [hc]
  exact congrArg _ ((if_pos begins).trans placed)

end

/-- Settles O51: the last part by `leads_keepsShow`, a command at a time. -/
theorem showLock : Obligations.ShowLock := by
  refine ⟨fun s c rest code i => ⟨exec_of_setup_refused, exec_of_frozen_refused⟩, fun s c rest => ?_,
    fun s c rest code => exec_unknownCommand_of_code, fun s t i rest hq hi frozen sound hw hst => ?_⟩
  · intro sets
    exact ⟨fun h => congrArg _ (h.setLock (by decide) .locked), fun h => congrArg _ (h.setLock (by decide) .unlocked),
      fun h => congrArg _ (h.setLock (by decide) .frozen)⟩
  · obtain ⟨t', ht', kept⟩ := leads_keepsShow hi (s.setPending rest)
    have same : t' = t := by
      rw [step, hq] at hst
      exact Host.Outcome.next.inj (ht'.symm.trans hst)
    obtain ⟨lock, others⟩ := (same ▸ kept frozen sound : s.showData.Kept t.showData).fields hw
    exact ⟨lock.trans frozen, others⟩

end Sys2Proof.Machine
end

section
/-!
PROOFS, the fault log taking a report (R121, R181 to R185), and READ FAULTS and CLEAR FAULTS (R188, R189): O54 and
O55.
-/

namespace Sys2Proof.Machine

/-! ### The lists of records -/

/-- The log has no record of this kind and location. -/
theorem any_covers_eq_false {rs : List FaultRecord} {kind : FaultKind} {loc : Location} :
    (rs.any fun r => r.covers kind loc) = false ↔ ∀ r ∈ rs, r.kind ≠ kind ∨ r.loc ≠ loc := by
  simp [FaultRecord.covers, imp_iff_not_or]

theorem FaultRecord.again_eq (r : FaultRecord) :
    r.again = { r with count := if r.count < 255 then r.count + 1 else 255 } := by
  have stops : min (r.count + 1) 255 = if r.count < 255 then r.count + 1 else 255 := by
    split <;> omega
  exact congrArg (fun n => { r with count := n }) stops

/-- The first record that satisfies the test is changed, in its place. -/
theorem changeFirst_append_cons {test : FaultRecord → Bool} {before : List FaultRecord} {r : FaultRecord}
    (f : FaultRecord → FaultRecord) (after : List FaultRecord) (hb : before.any test = false) (hr : test r = true) :
    changeFirst test f (before ++ r :: after) = before ++ f r :: after := by
  induction before with
  | nil => exact if_pos hr
  | cons q before ih =>
    obtain ⟨hq, hb⟩ := Bool.or_eq_false_iff.1 hb
    exact (if_neg (Bool.eq_false_iff.1 hq)).trans (congrArg (q :: ·) (ih hb))

/-- The last record is marked, and those before it are as they were (R185). -/
theorem markNewest_append_singleton (before : List FaultRecord) (r : FaultRecord) :
    markNewest (before ++ [r]) = before ++ [{ r with overflow := true }] := by
  induction before with
  | nil => rfl
  | cons q before ih =>
    rw [List.cons_append, markNewest.eq_3 q _ (by simp), ih, List.cons_append]

/-- The first MINOR record behind SEVERE ones is the one that is taken out (R184). -/
theorem splitMinor_append_cons {before : List FaultRecord} {r : FaultRecord} (after : List FaultRecord)
    (hb : ∀ q ∈ before, severe q.kind = true) (hr : severe r.kind = false) :
    splitMinor (before ++ r :: after) = some (r, before ++ after, before.length) := by
  induction before with
  | nil => simp [splitMinor, FaultRecord.minor, hr]
  | cons q before ih =>
    obtain ⟨hq, hb⟩ := List.forall_mem_cons.1 hb
    simp [splitMinor, FaultRecord.minor, hq, ih hb]

/-- Among SEVERE records there is none to take out. -/
theorem splitMinor_of_severe {rs : List FaultRecord} (h : ∀ q ∈ rs, severe q.kind = true) : splitMinor rs = none := by
  induction rs with
  | nil => rfl
  | cons q rs ih =>
    obtain ⟨hq, hs⟩ := List.forall_mem_cons.1 h
    simp [splitMinor, FaultRecord.minor, hq, ih hs]

/-! ### The four things a report can do (R182 to R185) -/

section
variable {s : State} {kind : FaultKind} {loc : Location}

/-- A repeated report raises the count of its record (R182). -/
theorem State.logFault_of_recorded {before after : List FaultRecord} {r : FaultRecord}
    (hl : s.faultLog.records = before ++ r :: after) (hk : r.kind = kind) (hloc : r.loc = loc)
    (hb : ∀ q ∈ before, q.kind ≠ kind ∨ q.loc ≠ loc) :
    s.logFault kind loc = s.setFaultLog { s.faultLog with records := before ++ r.again :: after } := by
  have hr : r.covers kind loc = true := (r.covers_iff kind loc).2 (Prod.ext hk hloc)
  have recorded : (s.faultLog.records.any fun q => q.covers kind loc) = true :=
    List.any_eq_true.2 ⟨r, by simp [hl], hr⟩
  refine (if_pos recorded).trans ?_
  rw [hl, changeFirst_append_cons _ after (any_covers_eq_false.2 hb) hr]

section
variable (new : ∀ q ∈ s.faultLog.records, q.kind ≠ kind ∨ q.loc ≠ loc)
include new

/-- A log with room takes a new record (R183). -/
theorem State.logFault_of_room (hroom : s.faultLog.records.length < 8) :
    s.logFault kind loc = s.newFault kind loc false s.faultLog :=
  (if_neg (Bool.eq_false_iff.1 (any_covers_eq_false.2 new))).trans (if_pos hroom)

/-- A SEVERE report takes the place of the oldest MINOR record (R184). -/
theorem State.logFault_of_evicts (hfull : 8 ≤ s.faultLog.records.length) (hs : severe kind = true)
    {before after : List FaultRecord} {r : FaultRecord} (hl : s.faultLog.records = before ++ r :: after)
    (hr : severe r.kind = false) (hb : ∀ q ∈ before, severe q.kind = true) :
    s.logFault kind loc = s.newFault kind loc r.overflow ⟨before ++ after,
      if before.length < s.faultLog.readPos then s.faultLog.readPos - 1 else s.faultLog.readPos⟩ := by
  have replaced : (if severe kind then splitMinor s.faultLog.records else none)
      = some (r, before ++ after, before.length) := by
    rw [if_pos hs, hl, splitMinor_append_cons after hb hr]
  refine (if_neg (Bool.eq_false_iff.1 (any_covers_eq_false.2 new))).trans ((if_neg (Nat.not_lt.2 hfull)).trans ?_)
  rw [replaced]

/-- A report that finds no record to replace is lost, and the newest record is marked (R185). -/
theorem State.logFault_of_lost (hfull : 8 ≤ s.faultLog.records.length) {before : List FaultRecord} {r : FaultRecord}
    (hl : s.faultLog.records = before ++ [r])
    (hs : severe kind = false ∨ ∀ q ∈ s.faultLog.records, severe q.kind = true) :
    s.logFault kind loc = s.setFaultLog { s.faultLog with records := before ++ [{ r with overflow := true }] } := by
  have nothing : (if severe kind then splitMinor s.faultLog.records else none) = none := by
    rcases hs with minor | all
    · rw [minor]
      rfl
    · rw [splitMinor_of_severe all, ite_self]
  refine (if_neg (Bool.eq_false_iff.1 (any_covers_eq_false.2 new))).trans ((if_neg (Nat.not_lt.2 hfull)).trans ?_)
  rw [nothing, hl, markNewest_append_singleton]

end

/-- FAULT_REPORT takes its report out of transit (R181). -/
theorem exec_faultReport (h : Request.fault kind loc ∈ s.requests) : exec (.faultReport kind loc) s =
    .next ((s.setRequests (s.requests.erase (.fault kind loc))).logFault kind loc) :=
  congrArg _ (s.take_of_mem h _)

end

/-- Exactly two kinds are SEVERE (R180). -/
theorem severe_iff (kind : FaultKind) : severe kind = true ↔ kind = .trunkSyncLoss ∨ kind = .ramPoisoned := by
  cases kind <;> decide

/-- Settles O54: each report by what it finds in the log. -/
theorem faultReports : Obligations.FaultReports := by
  refine ⟨severe_iff, rfl, fun s kind loc h => ?_⟩
  intro l taken created new
  have reported : exec (.faultReport kind loc) s = .next (taken.logFault kind loc) := exec_faultReport h
  refine ⟨fun before r after hl hk hloc hb => ?_, fun unrecorded => ⟨fun room => ?_,
    fun full hs before r after hl hr hb => ?_, fun before r full hl hs => ?_⟩⟩ <;> rw [reported]
  · rw [taken.logFault_of_recorded hl hk hloc hb, r.again_eq]
    rfl
  · exact congrArg _ (taken.logFault_of_room unrecorded room)
  · exact congrArg _ (taken.logFault_of_evicts unrecorded full hs hl hr hb)
  · exact congrArg _ (taken.logFault_of_lost unrecorded full hl hs)

/-! ### READ FAULTS and CLEAR FAULTS (R188, R189) -/

theorem FaultRecord.bytes_eq (r : FaultRecord) : r.bytes =
    [byte (faultCode r.kind), byte ((if severe r.kind then 128 else 0) + if r.overflow then 1 else 0)]
      ++ locationBytes r.loc ++ bytesOf32 r.stamp ++ [byte r.count] := by
  have marks : 128 * bit (severe r.kind) + bit r.overflow
      = (if severe r.kind then 128 else 0) + if r.overflow then 1 else 0 := by
    cases severe r.kind <;> rfl
  rw [FaultRecord.bytes, marks]

theorem noFaultBytes_eq : noFaultBytes = [0xFF, 0, 0, 0, 0xFF, 0xFF, 0xFF, 0xFF, 0xFF] := by decide

section
variable {s : State} {c : Command} {rest : List Command}

theorem State.canRun.answer_setFaultLog {code : Nat} {locks : List LockState} (h : s.canRun code locks c rest)
    (l : FaultLog) (a : Answer) : (s.setFaultLog l).answer a = (s.setFaultLog l).answered c rest a :=
  h.answer (t := s.setFaultLog l) rfl a

/-- The record at the read position is answered, and the position moves on (R188). -/
theorem exec_readFaults_some (h : s.canRun 0x50 anyLock c rest) {r : FaultRecord}
    (hr : s.faultLog.records[s.faultLog.readPos]? = some r) : exec .readFaults s =
      .next ((s.setFaultLog { s.faultLog with readPos := s.faultLog.readPos + 1 }).answered c rest
        (.ok (byte (16 * s.faultLog.readPos + s.faultLog.records.length) :: r.bytes))) := by
  refine congrArg Host.Outcome.next ((h.begin (by decide) readFaults).trans (.trans ?_ (h.answer_setFaultLog _ _)))
  simp only [readFaults, hr]

/-- Past the last record no record is answered, and the position is 0 again (R188). -/
theorem exec_readFaults_none (h : s.canRun 0x50 anyLock c rest)
    (hpast : s.faultLog.records.length ≤ s.faultLog.readPos) : exec .readFaults s =
      .next ((s.setFaultLog { s.faultLog with readPos := 0 }).answered c rest
        (.ok (byte (240 + s.faultLog.records.length) :: noFaultBytes))) := by
  refine congrArg Host.Outcome.next ((h.begin (by decide) readFaults).trans (.trans ?_ (h.answer_setFaultLog _ _)))
  simp only [readFaults, List.getElem?_eq_none hpast]

/-- The emptied log is answered with what it held (R189). -/
theorem exec_clearFaults (h : s.canRun 0x51 anyLock c rest) : exec .clearFaults s =
    .next ((s.setFaultLog ⟨[], 0⟩).answered c rest (.ok [byte s.faultLog.records.length,
      if s.faultLog.records.any FaultRecord.overflow then 1 else 0])) := by
  rw [← byte_bit]
  exact congrArg Host.Outcome.next ((h.begin (by decide) clearFaults).trans (h.answer_setFaultLog _ _))

end

/-- Settles O55: the reply by whether a record stands at the read position, its bytes by `FaultRecord.bytes_eq`. -/
theorem faultsReadAndCleared : Obligations.FaultsReadAndCleared := by
  refine ⟨fun s c rest h => ⟨fun r hr => ?_, fun past => ?_⟩, fun s c rest h mark marked => ?_⟩
  · rw [exec_readFaults_some h hr, r.bytes_eq]
    rfl
  · rw [exec_readFaults_none h past, noFaultBytes_eq]
    rfl
  · have same : s.faultLog.records.any FaultRecord.overflow = mark :=
      Bool.eq_iff_iff.2 (List.any_eq_true.trans marked.symm)
    rw [exec_clearFaults h, same]
    rfl

end Sys2Proof.Machine
end


section
/-!
PROOFS, the step of the block by the queue of waiting commands (00_scope 1.3, log 1): O1.
-/

namespace Sys2Proof.Machine

/-- The front command runs on the state that has the rest of the queue. -/
theorem step_of_pending_cons {s : State} {c : Instr} {rest : List Instr} (front : s.pending = c :: rest) :
    step s = exec c (s.setPending rest) := by
  rw [step, front]

/-- An empty queue idles (log 1). -/
theorem step_of_pending_nil {s : State} (empty : s.pending = []) : step s = .next s := by
  rw [step, empty]

/-- Settles O1, by the two forms of the queue. -/
theorem stepRunsTheFrontCommand : Obligations.StepRunsTheFrontCommand :=
  ⟨fun _ _ _ front => step_of_pending_cons front, fun _ empty => step_of_pending_nil empty⟩

end Sys2Proof.Machine
end
